-- ==== Sys2Proof/Word.lean ====
section
/-! DEFINITION. Word.lean: the widths of the core's registers and instruction fields (spec/00_scope.md R8, R10;
spec/30_encoding.md R52). -/

namespace Sys2Proof

/-- An 8-bit value: a `V` register, a timer, `SP`, a byte of memory or of the framebuffer. -/
abbrev Byte := BitVec 8

/-- A 16-bit value: `I`, `PC`, a stack entry, the keypad mask, an instruction word. -/
abbrev Word := BitVec 16

/-- A 4-bit instruction field: a register index `x` or `y`, or the sprite height `n` (R52). -/
abbrev Nibble := BitVec 4

/-- The 12-bit address field `nnn` of an instruction (R52). -/
abbrev Imm12 := BitVec 12

end Sys2Proof
end

