-- ==== Sys2Proof/Config.lean ====
section
/-! DEFINITION. Config.lean: the open parameters of the spec (spec/00_scope.md R9; spec/92_eei_decisions.md section 2),
each a constant with no body, so that no proof can depend on its value, and the free Boolean of the key test. -/

namespace Sys2Proof.Config

/-- The two readings of the shift instructions that decision D10 leaves open. -/
inductive ShiftSrc where
  /-- `8xy6` and `8xyE` shift `V[x]`. -/
  | x
  /-- `8xy6` and `8xyE` shift `V[y]`. -/
  | y
  deriving DecidableEq, Repr, Inhabited

/-- `FONT` (R9, D8): the glyph byte at address `a` of 0x000 to 0x04F. Log entry 6. -/
opaque font : Nat → Byte

/-- `INIT_MEM` (R9, D6): the byte that `create` leaves at address `a`, outside the font. Log entry 5. -/
opaque initMem : Nat → Byte

/-- `COST_8XY0` less one (R9, D9: an integer of at least 1). Log entry 8. -/
opaque cost8xy0Less1 : Nat

/-- `COST_8XY4` less one (R9, D9: an integer of at least 1). Log entry 8. -/
opaque cost8xy4Less1 : Nat

/-- `SHIFT_SRC` (R9, D10). Log entry 9. -/
opaque shiftSrc : ShiftSrc

/-- `RngInit` (R9, D18): the generator's state for a seed; a generator state is coded as a natural number. Log entry 10. -/
opaque rngInit : BitVec 64 → Nat

/-- `RngNext` (R9, D18): the byte a generator state gives, and the state after it. Log entry 10. -/
opaque rngNext : Nat → Byte × Nat

/-- The seed of the session that `State.reset` stands for: the host chooses it (R62, R143). Log entry 4. -/
opaque bootSeed : BitVec 64

/-- The free Boolean of the `k`-th key test whose key number is above 15 (R121, D17). Log entry 11. -/
opaque freeKey : Nat → Bool

end Sys2Proof.Config
end

