-- ==== Sys2Proof/Syntax.lean ====
section
/-! DEFINITION. Syntax.lean: the 35 instructions of spec/30_encoding.md R57, in the order of spec/opcode_table.json.
Fields are those of R52: `x`, `y` register indexes, `n` the sprite height, `nn` a byte, `nnn` a 12-bit address. -/

namespace Sys2Proof

/-- One constructor per row of spec/opcode_table.json. -/
inductive Instr where
  /-- `00E0` CLS, R115. -/
  | cls
  /-- `00EE` RET, R84. -/
  | ret
  /-- `0nnn` SYS nnn, R88. -/
  | sys (nnn : Imm12)
  /-- `1nnn` JP nnn, R85. -/
  | jp (nnn : Imm12)
  /-- `2nnn` CALL nnn, R86. -/
  | call (nnn : Imm12)
  /-- `3xnn` SE Vx, nn, R90. -/
  | seImm (x : Nibble) (nn : Byte)
  /-- `4xnn` SNE Vx, nn, R91. -/
  | sneImm (x : Nibble) (nn : Byte)
  /-- `5xy0` SE Vx, Vy, R92. -/
  | seReg (x y : Nibble)
  /-- `6xnn` LD Vx, nn, R96. -/
  | ldImm (x : Nibble) (nn : Byte)
  /-- `7xnn` ADD Vx, nn, R97. -/
  | addImm (x : Nibble) (nn : Byte)
  /-- `8xy0` LD Vx, Vy, R98. -/
  | ldReg (x y : Nibble)
  /-- `8xy1` OR Vx, Vy, R99. -/
  | orReg (x y : Nibble)
  /-- `8xy2` AND Vx, Vy, R100. -/
  | andReg (x y : Nibble)
  /-- `8xy3` XOR Vx, Vy, R101. -/
  | xorReg (x y : Nibble)
  /-- `8xy4` ADD Vx, Vy, R102. -/
  | addReg (x y : Nibble)
  /-- `8xy5` SUB Vx, Vy, R103. -/
  | sub (x y : Nibble)
  /-- `8xy6` SHR Vx, Vy, R104. -/
  | shr (x y : Nibble)
  /-- `8xy7` SUBN Vx, Vy, R105. -/
  | subn (x y : Nibble)
  /-- `8xyE` SHL Vx, Vy, R106. -/
  | shl (x y : Nibble)
  /-- `9xy0` SNE Vx, Vy, R93. -/
  | sneReg (x y : Nibble)
  /-- `Annn` LD I, nnn, R109. -/
  | ldI (nnn : Imm12)
  /-- `Bnnn` JP V0, nnn, R87. -/
  | jpV0 (nnn : Imm12)
  /-- `Cxnn` RND Vx, nn, R107. -/
  | rnd (x : Nibble) (nn : Byte)
  /-- `Dxyn` DRW Vx, Vy, n, R116. -/
  | drw (x y n : Nibble)
  /-- `Ex9E` SKP Vx, R122. -/
  | skp (x : Nibble)
  /-- `ExA1` SKNP Vx, R123. -/
  | sknp (x : Nibble)
  /-- `Fx07` LD Vx, DT, R124. -/
  | ldVxDt (x : Nibble)
  /-- `Fx0A` LD Vx, K, R125. -/
  | ldVxK (x : Nibble)
  /-- `Fx15` LD DT, Vx, R126. -/
  | ldDtVx (x : Nibble)
  /-- `Fx18` LD ST, Vx, R127. -/
  | ldStVx (x : Nibble)
  /-- `Fx1E` ADD I, Vx, R110. -/
  | addIVx (x : Nibble)
  /-- `Fx29` LD F, Vx, R111. -/
  | ldFVx (x : Nibble)
  /-- `Fx33` LD B, Vx, R112. -/
  | ldBVx (x : Nibble)
  /-- `Fx55` LD [I], Vx, R113. -/
  | ldMemVx (x : Nibble)
  /-- `Fx65` LD Vx, [I], R114. -/
  | ldVxMem (x : Nibble)
  deriving DecidableEq, Repr

end Sys2Proof
end

