-- ==== Sys2Proof/Machine/Cost.lean ====
section
/-! DEFINITION. Machine/Cost.lean: the cost table of spec/70_reset_and_hazards.md R150, in emulated microseconds. -/

namespace Sys2Proof.Machine

/-- `COST_8XY0`, an integer of at least 1 (spec/00_scope.md R9, D9). -/
def cost8xy0 : Nat := Config.cost8xy0Less1 + 1

/-- `COST_8XY4`, an integer of at least 1 (spec/00_scope.md R9, D9). -/
def cost8xy4 : Nat := Config.cost8xy4Less1 + 1

/-- The cost an instruction's handler returns (R150; spec/40_frame_cycle.md R74): it depends on the instruction alone. -/
def cost : Instr → Nat
  | .cls => 109
  | .ret => 105
  | .sys _ => 100
  | .jp _ => 105
  | .call _ => 105
  | .seImm _ _ => 61
  | .sneImm _ _ => 61
  | .seReg _ _ => 61
  | .ldImm _ _ => 27
  | .addImm _ _ => 45
  | .ldReg _ _ => cost8xy0
  | .orReg _ _ => 200
  | .andReg _ _ => 200
  | .xorReg _ _ => 200
  | .addReg _ _ => cost8xy4
  | .sub _ _ => 200
  | .shr _ _ => 200
  | .subn _ _ => 200
  | .shl _ _ => 200
  | .sneReg _ _ => 61
  | .ldI _ => 55
  | .jpV0 _ => 105
  | .rnd _ _ => 164
  | .drw _ _ _ => 22734
  | .skp _ => 73
  | .sknp _ => 73
  | .ldVxDt _ => 27
  | .ldVxK _ => 200
  | .ldDtVx _ => 45
  | .ldStVx _ => 45
  | .addIVx _ => 86
  | .ldFVx _ => 91
  | .ldBVx _ => 927
  | .ldMemVx _ => 605
  | .ldVxMem _ => 605

/-- `MAXCOST`, the largest cost of R150 (spec/10_state.md R29). -/
def maxCost : Nat := max 22734 (max cost8xy0 cost8xy4)

end Sys2Proof.Machine
end

