-- ==== Sys2Proof/Machine/Flags.lean ====
section
/-! DEFINITION. Machine/Flags.lean: 8-bit results and the bits written to `VF`, by the comparisons the document
requires (spec/43_alu.md R94, R104, R106). -/

namespace Sys2Proof.Machine

/-- `(a + b) mod 256` (R94). -/
def addResult (a b : Byte) : Byte := a + b

/-- Carry: `a + b`, before truncation, differs from the result (R94). -/
def addCarry (a b : Byte) : Bool := decide (a.toNat + b.toNat ≠ (addResult a b).toNat)

/-- `(a - b) mod 256` (R94). -/
def subResult (a b : Byte) : Byte := a - b

/-- Borrow, as the source computes it: the result is greater than `a` (R94). -/
def subBorrow (a b : Byte) : Bool := decide ((subResult a b).toNat > a.toNat)

/-- `s >> 1` (R104). -/
def shrResult (s : Byte) : Byte := s >>> 1

/-- `s & 1`, the bit shifted out to the right (R104). -/
def shrOut (s : Byte) : Bool := s.getLsbD 0

/-- `(s << 1) mod 256` (R106). -/
def shlResult (s : Byte) : Byte := s <<< 1

/-- `s >> 7`, the bit shifted out to the left (R106). -/
def shlOut (s : Byte) : Bool := s.getLsbD 7

/-- A flag as the byte `VF` holds: 1 or 0. -/
def flagByte (b : Bool) : Byte := if b then 1#8 else 0#8

end Sys2Proof.Machine
end

