-- ==== Sys2Proof/Machine/Params.lean ====
section
/-! DEFINITION. Machine/Params.lean: the fixed parameters of spec/00_scope.md R8. The figures are the document's own,
unaudited (spec/93_implementation_defined.md section 4; log entry 29). -/

namespace Sys2Proof.Machine

/-- `MEM_SIZE` (R8; spec/20_memory.md R34): addresses 0x000 to 0xFFF. -/
abbrev memSize : Nat := 0x1000

/-- `FONT_BASE` (R8). -/
abbrev fontBase : Word := 0x000#16

/-- The size of the font: 16 glyphs of 5 bytes, addresses 0x000 to 0x04F (R8; spec/20_memory.md R35). -/
abbrev fontSize : Nat := 0x050

/-- `PROGRAM_BASE` (R8): where the ROM image is placed, and the reset value of `PC`. -/
abbrev programBase : Nat := 0x200

/-- `MAX_ROM` (R8): the longest ROM `load_program` takes. -/
abbrev maxRom : Nat := 3584

/-- `STACK_DEPTH` (R8). -/
abbrev stackDepth : Nat := 16

/-- `FRAME_BUDGET` (R8): microseconds added at each frame start. -/
abbrev frameBudget : Int := 16666

/-- `MAX_PC_FETCH` (R8): the highest `PC` at which a fetch succeeds. -/
abbrev maxPcFetch : Word := 4094#16

end Sys2Proof.Machine
end

