-- ==== Sys2Proof/Machine/State.lean ====
section
/-! DEFINITION. Machine/State.lean: the Machine State of spec/10_state.md, the reasons a step can stop, the answers a
transaction can give, and the state that `create` leaves (spec/70_reset_and_hazards.md R143). -/

namespace Sys2Proof.Machine

/-- The model stops of spec/60_exceptions.md R131: behaviour the source document leaves undefined. A meaning answers
one of these; the frame loop then records it in `stopped` (spec/40_frame_cycle.md R78). All are safe: the machine goes no
further where the reference core does something undefined. -/
inductive Fault where
  /-- Raised by `2nnn` with a full stack (spec/41_flow.md R86); `pc` is the address of the CALL. Safe. -/
  | stackOverflow (pc : Word)
  /-- Raised by `00EE` with an empty stack (spec/41_flow.md R84); `pc` is the address of the RET. Safe. -/
  | stackUnderflow (pc : Word)
  /-- Raised by `Dxyn`, `Fx33`, `Fx55`, `Fx65` with an address above 0xFFF (spec/20_memory.md R45 to R47);
  `addr` is the lowest failing address. Safe. -/
  | memOutOfBounds (addr : Nat)
  /-- Raised by `Fx33`, `Fx55` with a write address of at most 0x04F (spec/20_memory.md R41, R46); `addr` is the
  lowest failing address. Safe. -/
  | fontWrite (addr : Nat)
  deriving DecidableEq, Repr

/-- The order of host operations (spec/10_state.md R31; spec/70_reset_and_hazards.md R145). -/
inductive Phase where
  | created
  | loaded
  | running
  deriving DecidableEq, Repr

/-- Where a transaction has no step (spec/40_frame_cycle.md R66, R78; spec/70_reset_and_hazards.md R145). -/
inductive Refusal where
  /-- Raised by `exec`'s arm of an instruction that has no meaning yet; no arm does so now. Safe. -/
  | notModelled (mnemonic : String)
  /-- Raised by `step` when the host sends `run_frame` before a successful load (R66). Safe: the model refuses a host
  order the reference core might accept. -/
  | runFrameNotAdmitted (phase : Phase)
  /-- Raised by `step` when the host sends `load_program` after a successful load (R145). Safe, as above. -/
  | loadProgramNotAdmitted (phase : Phase)
  /-- Raised by `step` when the host sends any transaction after a model stop (R78, R131). Safe. -/
  | afterStop (stop : Fault)
  deriving DecidableEq, Repr

/-- The core errors of spec/60_exceptions.md R128, returned to the host. -/
inductive CoreError where
  /-- Decode of an invalid word (spec/40_frame_cycle.md R73). -/
  | invalidOp (w0 w1 : Byte)
  /-- `load_program` with more than 3584 bytes (spec/70_reset_and_hazards.md R144). -/
  | romTooLarge (size : Nat)
  /-- Fetch with `PC > 4094` (spec/40_frame_cycle.md R72). -/
  | pcOutOfBounds (pc : Word)
  /-- Never raised (spec/60_exceptions.md R129). -/
  | debug
  deriving DecidableEq, Repr

/-- The answer of a transaction to the host (spec/40_frame_cycle.md R62). -/
inductive Answer where
  | ok
  | err (e : CoreError)
  | stop (f : Fault)
  deriving DecidableEq, Repr

/-- A transaction the host has sent (spec/40_frame_cycle.md R62). `create` is not here: it makes the state
(`State.create`). -/
inductive HostCall where
  | loadProgram (bytes : List Byte)
  | runFrame (keypadMask : Word)
  deriving DecidableEq, Repr

/-- The resting places of the frame FSM of spec/40_frame_cycle.md R64 between two steps. -/
inductive Activity where
  /-- No transaction is in progress (before FRAME_START, or after DONE, ERROR or STOPPED). -/
  | idle
  /-- A frame is in progress and its FSM is at CHECK. -/
  | inFrame
  deriving DecidableEq, Repr

/-- The written bytes, in rising address order; an address that is not listed has not been written since `create` and
reads as `Memory.unlisted` says. -/
abbrev Memory := List Host.Cell

/-- The Machine State (spec/10_state.md R33), and, below the line, what the model holds of the transaction interface. -/
structure State where
  /-- `V[0]` to `V[15]`, R15; `V[15]` is `VF`, R17. -/
  v : Vector Byte 16
  /-- The index register, R18. -/
  i : Word
  /-- The program counter, R19. -/
  pc : Word
  /-- The number of stack entries in use, R23. -/
  sp : Byte
  /-- The return stack, R22. -/
  stack : Vector Word 16
  /-- The delay timer, R24. -/
  dt : Byte
  /-- The sound timer, R25. -/
  st : Byte
  /-- The keypad mask latched at frame start, R28. -/
  keypad : Word
  /-- The framebuffer, 64 by 32 pixels packed in 256 bytes, R26. -/
  fb : Vector Byte 256
  /-- The tone output, R27. -/
  tone : Bool
  /-- The signed microsecond budget, R29. -/
  elapsedBudget : Int
  /-- The state of the pseudo-random generator, R30 (log entry 10). -/
  rngState : Nat
  /-- The 4096 bytes of memory, spec/20_memory.md R34. -/
  mem : Memory
  /-- The order of host operations, R31. -/
  phase : Phase
  /-- The model stop, once one has happened, R31. -/
  stopped : Option Fault
  -- The transaction interface (spec/40_frame_cycle.md R62 to R64).
  /-- Whether a frame is in progress (R64). -/
  activity : Activity
  /-- The transactions sent and not begun, oldest first (log entry 2). -/
  pending : List HostCall
  /-- The answer of the last transaction that ended (log entry 2). -/
  lastResult : Option Answer
  /-- The model's own field: how many free key tests have been drawn (spec/46_timers_keys.md R121; log entry 11). -/
  draws : Nat
  deriving DecidableEq, Repr

/-- `create(seed)` (spec/70_reset_and_hazards.md R143): memory lists nothing, so that every byte reads as `FONT` or
`INIT_MEM`. `I`, `SP`, `tone` and the budget are 0 by decision D7 (log entry 12); the last four fields are the model's
(log entry 28). -/
def State.create (seed : BitVec 64) : State where
  v := Vector.replicate 16 0#8
  i := 0#16
  pc := BitVec.ofNat 16 programBase
  sp := 0#8
  stack := Vector.replicate 16 0#16
  dt := 0#8
  st := 0#8
  keypad := 0#16
  fb := Vector.replicate 256 0#8
  tone := false
  elapsedBudget := 0
  rngState := Config.rngInit seed
  mem := []
  phase := .created
  stopped := none
  activity := .idle
  pending := []
  lastResult := none
  draws := 0

/-- The machine right after reset: `create` with the seed of this session (log entry 4). -/
def State.reset : State := State.create Config.bootSeed

end Sys2Proof.Machine
end

