-- ==== Sys2Proof/Machine/Memory.lean ====
section
/-! DEFINITION. Machine/Memory.lean: bytes of memory (spec/20_memory.md). The list holds the bytes written since
`create`, in rising address order; log entry 7 says why that is the canonical form. -/

namespace Sys2Proof.Machine

/-- What an address that nothing has written reads as: `FONT` in 0x000 to 0x04F, `INIT_MEM` elsewhere
(spec/70_reset_and_hazards.md R143; spec/10_state.md R33). -/
def Memory.unlisted (a : Nat) : Byte :=
  if a < fontSize then Config.font a else Config.initMem a

/-- The byte written at an address, if one has been. -/
def Memory.find : Memory → Nat → Option Byte
  | [], _ => none
  | (k, b) :: rest, a => if k = a then some b else Memory.find rest a

/-- `memory[a]`. -/
def Memory.read (m : Memory) (a : Nat) : Byte := (m.find a).getD (Memory.unlisted a)

/-- `memory[a] <- v`, keeping the list in rising address order. -/
def Memory.write : Memory → Nat → Byte → Memory
  | [], a, v => [(a, v)]
  | (k, b) :: rest, a, v =>
    if a < k then (a, v) :: (k, b) :: rest
    else if a = k then (a, v) :: rest
    else (k, b) :: Memory.write rest a v

/-- Bytes at consecutive rising addresses (spec/70_reset_and_hazards.md R144). -/
def Memory.writeBytes : Memory → Nat → List Byte → Memory
  | m, _, [] => m
  | m, a, b :: rest => Memory.writeBytes (m.write a b) (a + 1) rest

/-- Every address listed is above `lo` and the addresses rise strictly. -/
def Memory.risingAbove : Nat → Memory → Bool
  | _, [] => true
  | lo, (k, _) :: rest => decide (lo < k) && Memory.risingAbove k rest

/-- The addresses listed rise strictly. -/
def Memory.rising : Memory → Bool
  | [] => true
  | (k, _) :: rest => Memory.risingAbove k rest

/-- Every address listed is below `bound`. -/
def Memory.allBelow (bound : Nat) (m : Memory) : Bool := m.all fun c => decide (c.1 < bound)

/-- The canonical form: addresses of the 4096-byte buffer (spec/20_memory.md R34), strictly rising. An unlisted address
reads as a byte no proof knows, so no listed byte is one (log entry 7). -/
def Memory.wf (m : Memory) : Bool := m.rising && m.allBelow memSize

/-- `MemRead`'s check (spec/20_memory.md R45). -/
def memReadStop (addr : Nat) : Option Fault :=
  if addr > 0xFFF then some (.memOutOfBounds addr) else none

/-- `MemWrite`'s checks, in their order (spec/20_memory.md R46). -/
def memWriteStop (addr : Nat) : Option Fault :=
  if addr > 0xFFF then some (.memOutOfBounds addr)
  else if addr ≤ 0x04F then some (.fontWrite addr)
  else none

/-- The failure of the lowest failing address of `base` to `base + n - 1`, found by checking them in rising order
(spec/20_memory.md R47). -/
def firstStop (check : Nat → Option Fault) (base : Nat) : Nat → Option Fault
  | 0 => none
  | n + 1 => (check base).or (firstStop check (base + 1) n)

/-- The check of the `n` bytes an instruction reads from `base` (R47). A range of reads fails with MemOutOfBounds only. -/
def readRangeStop (base n : Nat) : Option Fault := firstStop memReadStop base n

/-- The check of the `n` bytes an instruction writes from `base` (R47): MemOutOfBounds takes precedence over FontWrite. -/
def writeRangeStop (base n : Nat) : Option Fault :=
  (firstStop memReadStop base n).or (firstStop memWriteStop base n)

end Sys2Proof.Machine
end

