-- ==== Sys2Proof/Machine/Operands.lean ====
section
/-! DEFINITION. Machine/Operands.lean: the operand forms of the 35 instructions (spec/30_encoding.md R53;
spec/00_scope.md R12): registers, zero-extended addresses, the shifted register, `I + k`, the key test. -/

namespace Sys2Proof.Machine

/-- `V[x]` (R12). -/
def State.getV (s : State) (x : Nibble) : Byte := s.v[x.toNat]'x.isLt

/-- `V[x] <- b` (R12). -/
def State.setV (s : State) (x : Nibble) (b : Byte) : State := { s with v := s.v.set x.toNat b x.isLt }

/-- `zext_16(nnn)` (R53). -/
def zextAddr (nnn : Imm12) : Word := nnn.setWidth 16

/-- `zext_16` of a byte (R53). -/
def zextByte (b : Byte) : Word := b.setWidth 16

/-- The register `8xy6` and `8xyE` shift: the parameter `SHIFT_SRC` says which (spec/43_alu.md R104, R106). -/
def State.shiftOperand (s : State) (x y : Nibble) : Byte :=
  match Config.shiftSrc with
  | .x => s.getV x
  | .y => s.getV y

/-- The address `I + k`, an integer that does not wrap (spec/44_index_memory.md R108). -/
def State.indexAddr (s : State) (k : Nat) : Nat := s.i.toNat + k

/-- Key `k` of 0 to 15 is held (spec/10_state.md R28). -/
def State.keyHeld (s : State) (k : Nat) : Bool := s.keypad.getLsbD k

/-- A key number that is no key: the test is then a free draw (spec/46_timers_keys.md R121). -/
def isFreeKey (k : Byte) : Bool := decide (15 < k.toNat)

/-- `pressed(k)` (R121): the latched mask for a key, the next free Boolean for a value above 15. -/
def State.pressed (s : State) (k : Byte) : Bool :=
  if isFreeKey k then Config.freeKey s.draws else s.keyHeld k.toNat

/-- The state after `pressed(k)`: a draw uses up one free Boolean (log entry 11). -/
def State.afterKeyTest (s : State) (k : Byte) : State :=
  if isFreeKey k then { s with draws := s.draws + 1 } else s

/-- The least `i` in 0 to 15 with `keypad[i] = 1`, if a key is held (spec/46_timers_keys.md R125). -/
def State.lowestKey (s : State) : Option Nat := (List.range 16).find? fun k => s.keyHeld k

end Sys2Proof.Machine
end

