-- ==== Sys2Proof/Machine/Ops.lean ====
section
/-! DEFINITION. Machine/Ops.lean: the operations the instruction meanings share: moving `PC`, writing a result and its
flag, stopping, block copies between registers and memory, the random step. The core has no trap entry and no return
from trap (spec/60_exceptions.md R133, R134): what a core error or a model stop does to the frame stands in
Machine/Frame.lean. -/

namespace Sys2Proof.Machine

/-- The outcome of a meaning. -/
abbrev Result := Host.Outcome State Fault Refusal

/-- `PC <- PC + 2` (spec/10_state.md R20). -/
def State.advance (s : State) : State := { s with pc := s.pc + 2#16 }

/-- `PC <- c ? PC + 4 : PC + 2` (spec/42_skip.md R89). -/
def State.skipIf (s : State) (c : Bool) : State := { s with pc := if c then s.pc + 4#16 else s.pc + 2#16 }

/-- `PC <- target` (spec/41_flow.md R83). -/
def State.jump (s : State) (target : Word) : State := { s with pc := target }

/-- `I <- a`. -/
def State.setI (s : State) (a : Word) : State := { s with i := a }

/-- `DT <- b`. -/
def State.setDt (s : State) (b : Byte) : State := { s with dt := b }

/-- `ST <- b`. -/
def State.setSt (s : State) (b : Byte) : State := { s with st := b }

/-- `memory[a] <- b`, after the checks of spec/20_memory.md R46 have passed. -/
def State.storeByte (s : State) (a : Nat) (b : Byte) : State := { s with mem := s.mem.write a b }

/-- The register index of `VF` (spec/10_state.md R17). -/
def vf : Nibble := 0xF#4

/-- Writes a result to `V[x]` and advances. -/
def State.setResult (s : State) (x : Nibble) (r : Byte) : State := (s.setV x r).advance

/-- Writes the result to `V[x]`, then the flag to `VF`, then advances (spec/43_alu.md R95): with `x = 15` the flag
overwrites the result. -/
def State.setResultFlag (s : State) (x : Nibble) (r : Byte) (flag : Bool) : State :=
  ((s.setV x r).setV vf (flagByte flag)).advance

/-- Ends in the stop if there is one, and else in the next state: the stopping instruction writes nothing
(spec/60_exceptions.md R131; spec/20_memory.md R47). -/
def stopOr (stop : Option Fault) (t : State) : Result :=
  match stop with
  | some f => .fault f
  | none => .next t

/-- `CALL`'s check (spec/41_flow.md R86). `SP` above 16 is no legal value (spec/10_state.md R23); the entry to write is
then past the stack as well (log entry 14). -/
def State.pushStop (s : State) : Option Fault :=
  if s.sp.toNat ≥ stackDepth then some (.stackOverflow s.pc) else none

/-- `stack[SP] <- a; SP <- SP + 1` (spec/41_flow.md R86); `pushStop` leaves only `SP` below 16. -/
def State.push (s : State) (a : Word) : State :=
  { s with stack := s.stack.setIfInBounds s.sp.toNat a, sp := s.sp + 1#8 }

/-- `RET`'s check (spec/41_flow.md R84); for `SP` above 16 see `State.pushStop`. -/
def State.popStop (s : State) : Option Fault :=
  if s.sp = 0#8 then some (.stackUnderflow s.pc)
  else if s.sp.toNat > stackDepth then some (.stackOverflow s.pc)
  else none

/-- `SP - 1`. -/
def State.poppedSp (s : State) : Byte := s.sp - 1#8

/-- `stack[SP - 1]`, the entry a return pops; `popStop` leaves only `SP` of 1 to 16, so the default is never used. -/
def State.topOfStack (s : State) : Word := s.stack[s.poppedSp.toNat]?.getD 0#16

/-- `SP <- SP - 1; PC <- stack[SP]` (spec/41_flow.md R84): the popped entry keeps its value. -/
def State.popJump (s : State) : State := { s with sp := s.poppedSp, pc := s.topOfStack }

/-- `for k = 0 to n-1: MemWrite(I + k, 1, V[k])` (spec/44_index_memory.md R113). -/
def State.storeRegs (s : State) : Nat → State
  | 0 => s
  | n + 1 =>
    let t := s.storeRegs n
    t.storeByte (t.indexAddr n) (t.getV (BitVec.ofNat 4 n))

/-- `for k = 0 to n-1: V[k] <- MemRead(I + k, 1)` (spec/44_index_memory.md R114). -/
def State.loadRegs (s : State) : Nat → State
  | 0 => s
  | n + 1 =>
    let t := s.loadRegs n
    t.setV (BitVec.ofNat 4 n) (t.mem.read (t.indexAddr n))

/-- Hundreds digit (spec/44_index_memory.md R112). -/
def bcdHundreds (v : Byte) : Byte := BitVec.ofNat 8 (v.toNat / 100)

/-- Tens digit (spec/44_index_memory.md R112). -/
def bcdTens (v : Byte) : Byte := BitVec.ofNat 8 (v.toNat / 10 % 10)

/-- Ones digit (spec/44_index_memory.md R112). -/
def bcdOnes (v : Byte) : Byte := BitVec.ofNat 8 (v.toNat % 10)

/-- The byte `RngNext` gives (spec/43_alu.md R107). -/
def State.randomByte (s : State) : Byte := (Config.rngNext s.rngState).1

/-- The state after one `RngNext` (spec/43_alu.md R107). -/
def State.advanceRng (s : State) : State := { s with rngState := (Config.rngNext s.rngState).2 }

end Sys2Proof.Machine
end

