-- ==== Sys2Proof/Machine/Alu.lean ====
section
/-! DEFINITION. Machine/Alu.lean: register loads and arithmetic, spec/43_alu.md. Operands are read before any write
(R95). -/

namespace Sys2Proof.Machine

/-- `6xnn`, R96. -/
def execLdImm (x : Nibble) (nn : Byte) (s : State) : Result := .next (s.setResult x nn)

/-- `7xnn`, R97: no flag. -/
def execAddImm (x : Nibble) (nn : Byte) (s : State) : Result :=
  .next (s.setResult x (addResult (s.getV x) nn))

/-- `8xy0`, R98. -/
def execLdReg (x y : Nibble) (s : State) : Result := .next (s.setResult x (s.getV y))

/-- `8xy1`, R99: no flag. -/
def execOrReg (x y : Nibble) (s : State) : Result := .next (s.setResult x (s.getV x ||| s.getV y))

/-- `8xy2`, R100: no flag. -/
def execAndReg (x y : Nibble) (s : State) : Result := .next (s.setResult x (s.getV x &&& s.getV y))

/-- `8xy3`, R101: no flag. -/
def execXorReg (x y : Nibble) (s : State) : Result := .next (s.setResult x (s.getV x ^^^ s.getV y))

/-- `8xy4`, R102: `VF` = carry. -/
def execAddReg (x y : Nibble) (s : State) : Result :=
  .next (s.setResultFlag x (addResult (s.getV x) (s.getV y)) (addCarry (s.getV x) (s.getV y)))

/-- `8xy5`, R103: `VF` = not borrow of `V[x] - V[y]`. -/
def execSub (x y : Nibble) (s : State) : Result :=
  .next (s.setResultFlag x (subResult (s.getV x) (s.getV y)) (!subBorrow (s.getV x) (s.getV y)))

/-- `8xy6`, R104: `VF` = the bit shifted out. -/
def execShr (x y : Nibble) (s : State) : Result :=
  .next (s.setResultFlag x (shrResult (s.shiftOperand x y)) (shrOut (s.shiftOperand x y)))

/-- `8xy7`, R105: `VF` = not borrow of `V[y] - V[x]`. -/
def execSubn (x y : Nibble) (s : State) : Result :=
  .next (s.setResultFlag x (subResult (s.getV y) (s.getV x)) (!subBorrow (s.getV y) (s.getV x)))

/-- `8xyE`, R106: `VF` = the bit shifted out. -/
def execShl (x y : Nibble) (s : State) : Result :=
  .next (s.setResultFlag x (shlResult (s.shiftOperand x y)) (shlOut (s.shiftOperand x y)))

/-- `Cxnn`, R107: one step of the generator, its byte under the mask. -/
def execRnd (x : Nibble) (nn : Byte) (s : State) : Result :=
  .next (s.advanceRng.setResult x (s.randomByte &&& nn))

end Sys2Proof.Machine
end

