-- ==== Sys2Proof/Machine/Display.lean ====
section
/-! DEFINITION. Machine/Display.lean: the framebuffer of spec/10_state.md R26, and CLS and DRW of spec/45_display.md. -/

namespace Sys2Proof.Machine

/-- The packed framebuffer (R26). -/
abbrev Framebuffer := Vector Byte 256

/-- The byte that holds pixel `(px, py)`: `fb[y * 8 + (x div 8)]` (R26). -/
def pixelByte (px : Fin 64) (py : Fin 32) : Fin 256 := ⟨py.val * 8 + px.val / 8, by omega⟩

/-- The bit of that byte: `7 - (x mod 8)` (R26). -/
def pixelBit (px : Fin 64) : Nat := 7 - px.val % 8

/-- `FB(x, y)` (R26). -/
def getPixel (fb : Framebuffer) (px : Fin 64) (py : Fin 32) : Bool :=
  (fb[(pixelByte px py).val]'(pixelByte px py).isLt).getLsbD (pixelBit px)

/-- `FB(x, y) <- FB(x, y) ^ 1` (spec/45_display.md R116). -/
def flipPixel (fb : Framebuffer) (px : Fin 64) (py : Fin 32) : Framebuffer :=
  fb.set (pixelByte px py).val
    ((fb[(pixelByte px py).val]'(pixelByte px py).isLt) ^^^ (1#8 <<< pixelBit px)) (pixelByte px py).isLt

/-- A drawing in progress: the framebuffer and `collide`. -/
abbrev Drawing := Framebuffer × Bool

/-- One pixel of a sprite (R116): column `c` of the row byte `sb`, drawn at `(x0 + c) mod 64`. -/
def drawPixel (sb : Byte) (x0 : Nat) (py : Fin 32) (d : Drawing) (c : Nat) : Drawing :=
  if sb.getLsbD (7 - c) then
    (flipPixel d.1 (Fin.ofNat 64 (x0 + c)) py, d.2 || getPixel d.1 (Fin.ofNat 64 (x0 + c)) py)
  else d

/-- One row of a sprite: columns 0 to 7 (R116). -/
def drawRow (sb : Byte) (x0 : Nat) (py : Fin 32) (d : Drawing) : Drawing :=
  (List.range 8).foldl (drawPixel sb x0 py) d

/-- The first `n` rows of a sprite (R116); `row r` is the sprite byte of row `r`, drawn at `(y0 + r) mod 32`. -/
def drawRows (row : Nat → Byte) (x0 y0 : Nat) (d : Drawing) : Nat → Drawing
  | 0 => d
  | n + 1 => drawRow (row n) x0 (Fin.ofNat 32 (y0 + n)) (drawRows row x0 y0 d n)

/-- The sprite byte of row `r`: `memory[I + r]` (R116). -/
def State.spriteRow (s : State) (r : Nat) : Byte := s.mem.read (s.indexAddr r)

/-- `V[x] mod 64` (R116). -/
def startColumn (vx : Byte) : Nat := vx.toNat % 64

/-- `V[y] mod 32` (R116). -/
def startRow (vy : Byte) : Nat := vy.toNat % 32

/-- The whole drawing of `Dxyn` (R116): coordinates are read before `VF` is written (R119). -/
def State.drawing (s : State) (x y n : Nibble) : Drawing :=
  drawRows s.spriteRow (startColumn (s.getV x)) (startRow (s.getV y)) (s.fb, false) n.toNat

/-- Writes a finished drawing: the framebuffer, then `VF` (R116). -/
def State.setDrawing (s : State) (d : Drawing) : State := { s with fb := d.1 }.setV vf (flagByte d.2)

/-- `for each k in 0..255: fb[k] <- 0x00` (R115). -/
def State.clearScreen (s : State) : State := { s with fb := Vector.replicate 256 0#8 }

/-- `00E0`, R115. -/
def execCls (s : State) : Result := .next s.clearScreen.advance

/-- `Dxyn`, R116 to R119: with `n = 0` nothing is read or drawn and `VF` is 0 (R118). -/
def execDrw (x y n : Nibble) (s : State) : Result :=
  stopOr (readRangeStop (s.indexAddr 0) n.toNat) (s.setDrawing (s.drawing x y n)).advance

end Sys2Proof.Machine
end

