-- ==== Sys2Proof/Machine/Flow.lean ====
section
/-! DEFINITION. Machine/Flow.lean: control transfer, spec/41_flow.md, and the conditional skips, spec/42_skip.md. -/

namespace Sys2Proof.Machine

/-- `00EE`, R84. -/
def execRet (s : State) : Result := stopOr s.popStop s.popJump

/-- `0nnn`, R88: no state change but `PC`. -/
def execSys (_nnn : Imm12) (s : State) : Result := .next s.advance

/-- `1nnn`, R85. -/
def execJp (nnn : Imm12) (s : State) : Result := .next (s.jump (zextAddr nnn))

/-- `2nnn`, R86: pushes the address of the next instruction. -/
def execCall (nnn : Imm12) (s : State) : Result :=
  stopOr s.pushStop ((s.push (s.pc + 2#16)).jump (zextAddr nnn))

/-- `Bnnn`, R87: always `V0`. -/
def execJpV0 (nnn : Imm12) (s : State) : Result :=
  .next (s.jump (zextByte (s.getV 0x0#4) + zextAddr nnn))

/-- `3xnn`, R90. -/
def execSeImm (x : Nibble) (nn : Byte) (s : State) : Result := .next (s.skipIf (s.getV x == nn))

/-- `4xnn`, R91. -/
def execSneImm (x : Nibble) (nn : Byte) (s : State) : Result := .next (s.skipIf (s.getV x != nn))

/-- `5xy0`, R92. -/
def execSeReg (x y : Nibble) (s : State) : Result := .next (s.skipIf (s.getV x == s.getV y))

/-- `9xy0`, R93. -/
def execSneReg (x y : Nibble) (s : State) : Result := .next (s.skipIf (s.getV x != s.getV y))

end Sys2Proof.Machine
end

