-- ==== Sys2Proof/Machine/IndexMemory.lean ====
section
/-! DEFINITION. Machine/IndexMemory.lean: the index register and memory block operations, spec/44_index_memory.md.
No access changes `I` (R108). -/

namespace Sys2Proof.Machine

/-- `Annn`, R109. -/
def execLdI (nnn : Imm12) (s : State) : Result := .next (s.setI (zextAddr nnn)).advance

/-- `Fx1E`, R110: 16-bit wraparound, no flag. -/
def execAddIVx (x : Nibble) (s : State) : Result := .next (s.setI (s.i + zextByte (s.getV x))).advance

/-- `Fx29`, R111: `V[x]` is not masked. -/
def execLdFVx (x : Nibble) (s : State) : Result :=
  .next (s.setI (fontBase + zextByte (s.getV x) * 5#16)).advance

/-- The three bytes of `Fx33` (R112): hundreds, tens, ones. -/
def State.storeBcd (s : State) (v : Byte) : State :=
  ((s.storeByte (s.indexAddr 0) (bcdHundreds v)).storeByte (s.indexAddr 1) (bcdTens v)).storeByte
    (s.indexAddr 2) (bcdOnes v)

/-- `Fx33`, R112. -/
def execLdBVx (x : Nibble) (s : State) : Result :=
  stopOr (writeRangeStop (s.indexAddr 0) 3) (s.storeBcd (s.getV x)).advance

/-- `Fx55`, R113: `x + 1` bytes. -/
def execLdMemVx (x : Nibble) (s : State) : Result :=
  stopOr (writeRangeStop (s.indexAddr 0) (x.toNat + 1)) (s.storeRegs (x.toNat + 1)).advance

/-- `Fx65`, R114: `x + 1` bytes. -/
def execLdVxMem (x : Nibble) (s : State) : Result :=
  stopOr (readRangeStop (s.indexAddr 0) (x.toNat + 1)) (s.loadRegs (x.toNat + 1)).advance

end Sys2Proof.Machine
end

