-- ==== Sys2Proof/Machine/TimersKeys.lean ====
section
/-! DEFINITION. Machine/TimersKeys.lean: the key skips, the key wait and the timer moves, spec/46_timers_keys.md. -/

namespace Sys2Proof.Machine

/-- `Ex9E`, R122. -/
def execSkp (x : Nibble) (s : State) : Result :=
  .next ((s.afterKeyTest (s.getV x)).skipIf (s.pressed (s.getV x)))

/-- `ExA1`, R123. -/
def execSknp (x : Nibble) (s : State) : Result :=
  .next ((s.afterKeyTest (s.getV x)).skipIf (!s.pressed (s.getV x)))

/-- `Fx07`, R124. -/
def execLdVxDt (x : Nibble) (s : State) : Result := .next (s.setResult x s.dt)

/-- What `Fx0A` does once the held key is known (R125): with none, `PC` stays and the instruction executes again. -/
def State.keyWait (s : State) (x : Nibble) : Option Nat → State
  | none => s.jump s.pc
  | some k => s.setResult x (BitVec.ofNat 8 k)

/-- `Fx0A`, R125: the lowest key held wins. -/
def execLdVxK (x : Nibble) (s : State) : Result := .next (s.keyWait x s.lowestKey)

/-- `Fx15`, R126. -/
def execLdDtVx (x : Nibble) (s : State) : Result := .next (s.setDt (s.getV x)).advance

/-- `Fx18`, R127: `tone` does not change at once. -/
def execLdStVx (x : Nibble) (s : State) : Result := .next (s.setSt (s.getV x)).advance

end Sys2Proof.Machine
end

