-- ==== Sys2Proof/WellFormed.lean ====
section
/-! DEFINITION. WellFormed.lean: which instructions have a word of their own. The field widths are in the types of
Syntax.lean; the one condition left is spec/30_encoding.md R56: the words 0x00E0 and 0x00EE are CLS and RET, so
SYS 0x0E0 and SYS 0x0EE are no instructions. -/

namespace Sys2Proof

/-- The addresses `nnn` for which `0nnn` is a SYS (R56). -/
def sysAddressOk (nnn : Imm12) : Bool := nnn != 0x0E0#12 && nnn != 0x0EE#12

/-- The instruction has an encoding of its own (R56, R57). -/
def Instr.wellFormed : Instr → Bool
  | .cls => true
  | .ret => true
  | .sys nnn => sysAddressOk nnn
  | .jp _ => true
  | .call _ => true
  | .seImm _ _ => true
  | .sneImm _ _ => true
  | .seReg _ _ => true
  | .ldImm _ _ => true
  | .addImm _ _ => true
  | .ldReg _ _ => true
  | .orReg _ _ => true
  | .andReg _ _ => true
  | .xorReg _ _ => true
  | .addReg _ _ => true
  | .sub _ _ => true
  | .shr _ _ => true
  | .subn _ _ => true
  | .shl _ _ => true
  | .sneReg _ _ => true
  | .ldI _ => true
  | .jpV0 _ => true
  | .rnd _ _ => true
  | .drw _ _ _ => true
  | .skp _ => true
  | .sknp _ => true
  | .ldVxDt _ => true
  | .ldVxK _ => true
  | .ldDtVx _ => true
  | .ldStVx _ => true
  | .addIVx _ => true
  | .ldFVx _ => true
  | .ldBVx _ => true
  | .ldMemVx _ => true
  | .ldVxMem _ => true

end Sys2Proof
end

