-- ==== Sys2Proof/Decode.lean ====
section
/-! DEFINITION. Decode.lean: the decoder of spec/30_encoding.md R52 and R55, the encoder written from the patterns of
R54 and R57, and the rows of R57 (spec/opcode_table.json) as data. -/

namespace Sys2Proof

/-- What decoding answers: one instruction, or `Invalid` with the two bytes, which is what `InvalidOp` reports (R55, R58). -/
inductive Decoded where
  | instr (i : Instr)
  /-- The word matches no pattern (R58): the frame loop raises `InvalidOp` with these two bytes (R73). -/
  | invalid (w0 w1 : Byte)
  deriving DecidableEq, Repr

/-- `hi_nib(b) = b[7:4]` (spec/00_scope.md R13). -/
def hiNib (b : Byte) : Nibble := b.extractLsb' 4 4

/-- `lo_nib(b) = b[3:0]` (spec/00_scope.md R13). -/
def loNib (b : Byte) : Nibble := b.extractLsb' 0 4

/-- The field `nnn = {lo_nib(w0), w1}` (R52). -/
def fieldNnn (w0 w1 : Byte) : Imm12 := loNib w0 ++ w1

/-- Family 0 (R56): the two fixed words first, every other word a SYS. -/
def decodeFamily0 (w0 w1 : Byte) : Decoded :=
  if w0 = 0x00#8 ∧ w1 = 0xE0#8 then .instr .cls
  else if w0 = 0x00#8 ∧ w1 = 0xEE#8 then .instr .ret
  else .instr (.sys (fieldNnn w0 w1))

/-- Family 8 (R55): secondary dispatch on `n`. -/
def decodeFamily8 (w0 w1 : Byte) : Decoded :=
  let x := loNib w0
  let y := hiNib w1
  match loNib w1 with
  | 0x0#4 => .instr (.ldReg x y)
  | 0x1#4 => .instr (.orReg x y)
  | 0x2#4 => .instr (.andReg x y)
  | 0x3#4 => .instr (.xorReg x y)
  | 0x4#4 => .instr (.addReg x y)
  | 0x5#4 => .instr (.sub x y)
  | 0x6#4 => .instr (.shr x y)
  | 0x7#4 => .instr (.subn x y)
  | 0xE#4 => .instr (.shl x y)
  | _ => .invalid w0 w1

/-- Family E (R55): secondary dispatch on `nn`. -/
def decodeFamilyE (w0 w1 : Byte) : Decoded :=
  let x := loNib w0
  if w1 = 0x9E#8 then .instr (.skp x)
  else if w1 = 0xA1#8 then .instr (.sknp x)
  else .invalid w0 w1

/-- Family F (R55): secondary dispatch on `nn`. -/
def decodeFamilyF (w0 w1 : Byte) : Decoded :=
  let x := loNib w0
  if w1 = 0x07#8 then .instr (.ldVxDt x)
  else if w1 = 0x0A#8 then .instr (.ldVxK x)
  else if w1 = 0x15#8 then .instr (.ldDtVx x)
  else if w1 = 0x18#8 then .instr (.ldStVx x)
  else if w1 = 0x1E#8 then .instr (.addIVx x)
  else if w1 = 0x29#8 then .instr (.ldFVx x)
  else if w1 = 0x33#8 then .instr (.ldBVx x)
  else if w1 = 0x55#8 then .instr (.ldMemVx x)
  else if w1 = 0x65#8 then .instr (.ldVxMem x)
  else .invalid w0 w1

/-- `decode(w0, w1)` of R55: total, pure, one instruction or `Invalid`. -/
def decode (w0 w1 : Byte) : Decoded :=
  let x := loNib w0
  let y := hiNib w1
  let n := loNib w1
  let nnn := fieldNnn w0 w1
  match hiNib w0 with
  | 0x0#4 => decodeFamily0 w0 w1
  | 0x1#4 => .instr (.jp nnn)
  | 0x2#4 => .instr (.call nnn)
  | 0x3#4 => .instr (.seImm x w1)
  | 0x4#4 => .instr (.sneImm x w1)
  | 0x5#4 => if n = 0x0#4 then .instr (.seReg x y) else .invalid w0 w1
  | 0x6#4 => .instr (.ldImm x w1)
  | 0x7#4 => .instr (.addImm x w1)
  | 0x8#4 => decodeFamily8 w0 w1
  | 0x9#4 => if n = 0x0#4 then .instr (.sneReg x y) else .invalid w0 w1
  | 0xA#4 => .instr (.ldI nnn)
  | 0xB#4 => .instr (.jpV0 nnn)
  | 0xC#4 => .instr (.rnd x w1)
  | 0xD#4 => .instr (.drw x y n)
  | 0xE#4 => decodeFamilyE w0 w1
  | _ => decodeFamilyF w0 w1

/-- Format `NNN` of R54: an opcode nibble and an address. -/
def formatNnn (op : Nibble) (nnn : Imm12) : Word := op ++ nnn

/-- Format `XNN` of R54: an opcode nibble, a register index and a byte. -/
def formatXnn (op x : Nibble) (nn : Byte) : Word := (op ++ x) ++ nn

/-- Formats `XY` and `XYN` of R54: an opcode nibble, two register indexes and a last nibble. -/
def formatXyn (op x y n : Nibble) : Word := (op ++ x) ++ (y ++ n)

/-- The word of an instruction, by the patterns of R57. -/
def encode : Instr → Word
  | .cls => 0x00E0#16
  | .ret => 0x00EE#16
  | .sys nnn => formatNnn 0x0#4 nnn
  | .jp nnn => formatNnn 0x1#4 nnn
  | .call nnn => formatNnn 0x2#4 nnn
  | .seImm x nn => formatXnn 0x3#4 x nn
  | .sneImm x nn => formatXnn 0x4#4 x nn
  | .seReg x y => formatXyn 0x5#4 x y 0x0#4
  | .ldImm x nn => formatXnn 0x6#4 x nn
  | .addImm x nn => formatXnn 0x7#4 x nn
  | .ldReg x y => formatXyn 0x8#4 x y 0x0#4
  | .orReg x y => formatXyn 0x8#4 x y 0x1#4
  | .andReg x y => formatXyn 0x8#4 x y 0x2#4
  | .xorReg x y => formatXyn 0x8#4 x y 0x3#4
  | .addReg x y => formatXyn 0x8#4 x y 0x4#4
  | .sub x y => formatXyn 0x8#4 x y 0x5#4
  | .shr x y => formatXyn 0x8#4 x y 0x6#4
  | .subn x y => formatXyn 0x8#4 x y 0x7#4
  | .shl x y => formatXyn 0x8#4 x y 0xE#4
  | .sneReg x y => formatXyn 0x9#4 x y 0x0#4
  | .ldI nnn => formatNnn 0xA#4 nnn
  | .jpV0 nnn => formatNnn 0xB#4 nnn
  | .rnd x nn => formatXnn 0xC#4 x nn
  | .drw x y n => formatXyn 0xD#4 x y n
  | .skp x => formatXnn 0xE#4 x 0x9E#8
  | .sknp x => formatXnn 0xE#4 x 0xA1#8
  | .ldVxDt x => formatXnn 0xF#4 x 0x07#8
  | .ldVxK x => formatXnn 0xF#4 x 0x0A#8
  | .ldDtVx x => formatXnn 0xF#4 x 0x15#8
  | .ldStVx x => formatXnn 0xF#4 x 0x18#8
  | .addIVx x => formatXnn 0xF#4 x 0x1E#8
  | .ldFVx x => formatXnn 0xF#4 x 0x29#8
  | .ldBVx x => formatXnn 0xF#4 x 0x33#8
  | .ldMemVx x => formatXnn 0xF#4 x 0x55#8
  | .ldVxMem x => formatXnn 0xF#4 x 0x65#8

/-- The byte `w0` of a word: its high half, which lies at the lower address (spec/20_memory.md R38). -/
def wordHi (w : Word) : Byte := w.extractLsb' 8 8

/-- The byte `w1` of a word: its low half (spec/20_memory.md R38). -/
def wordLo (w : Word) : Byte := w.extractLsb' 0 8

/-- `decode` of a whole word `W = {w0, w1}` (R52). -/
def decodeWord (w : Word) : Decoded := decode (wordHi w) (wordLo w)

/-- The mask and match of the instruction's row in R57: a word `W` is the instruction when `W & mask = match`. -/
def tableRow : Instr → Word × Word
  | .cls => (0xFFFF#16, 0x00E0#16)
  | .ret => (0xFFFF#16, 0x00EE#16)
  | .sys _ => (0xF000#16, 0x0000#16)
  | .jp _ => (0xF000#16, 0x1000#16)
  | .call _ => (0xF000#16, 0x2000#16)
  | .seImm _ _ => (0xF000#16, 0x3000#16)
  | .sneImm _ _ => (0xF000#16, 0x4000#16)
  | .seReg _ _ => (0xF00F#16, 0x5000#16)
  | .ldImm _ _ => (0xF000#16, 0x6000#16)
  | .addImm _ _ => (0xF000#16, 0x7000#16)
  | .ldReg _ _ => (0xF00F#16, 0x8000#16)
  | .orReg _ _ => (0xF00F#16, 0x8001#16)
  | .andReg _ _ => (0xF00F#16, 0x8002#16)
  | .xorReg _ _ => (0xF00F#16, 0x8003#16)
  | .addReg _ _ => (0xF00F#16, 0x8004#16)
  | .sub _ _ => (0xF00F#16, 0x8005#16)
  | .shr _ _ => (0xF00F#16, 0x8006#16)
  | .subn _ _ => (0xF00F#16, 0x8007#16)
  | .shl _ _ => (0xF00F#16, 0x800E#16)
  | .sneReg _ _ => (0xF00F#16, 0x9000#16)
  | .ldI _ => (0xF000#16, 0xA000#16)
  | .jpV0 _ => (0xF000#16, 0xB000#16)
  | .rnd _ _ => (0xF000#16, 0xC000#16)
  | .drw _ _ _ => (0xF000#16, 0xD000#16)
  | .skp _ => (0xF0FF#16, 0xE09E#16)
  | .sknp _ => (0xF0FF#16, 0xE0A1#16)
  | .ldVxDt _ => (0xF0FF#16, 0xF007#16)
  | .ldVxK _ => (0xF0FF#16, 0xF00A#16)
  | .ldDtVx _ => (0xF0FF#16, 0xF015#16)
  | .ldStVx _ => (0xF0FF#16, 0xF018#16)
  | .addIVx _ => (0xF0FF#16, 0xF01E#16)
  | .ldFVx _ => (0xF0FF#16, 0xF029#16)
  | .ldBVx _ => (0xF0FF#16, 0xF033#16)
  | .ldMemVx _ => (0xF0FF#16, 0xF055#16)
  | .ldVxMem _ => (0xF0FF#16, 0xF065#16)

/-- The word of `nbits` bits numbered as spec/opcode_table.json numbers them; every bit above `nbits` is 0. -/
def tableWord (nbits w : Nat) : Word := BitVec.ofNat 16 (w % 2 ^ nbits)

/-- What the decoder reads from an instruction given as a number of spec/opcode_table.json: the instruction is one
16-bit word, stored with its high byte first (spec/20_memory.md R38). -/
def decodeTableWord (nbits w : Nat) : Option Instr :=
  match decodeWord (tableWord nbits w) with
  | .instr i => some i
  | .invalid _ _ => none

end Sys2Proof
end

