-- ==== Sys2Proof/Machine/Frame.lean ====
section
/-! DEFINITION. Machine/Frame.lean: what the frame stepper and the loader do around the handlers: spec/40_frame_cycle.md
R66 to R78, spec/70_reset_and_hazards.md R144 and R145, and the status codes of spec/60_exceptions.md R128 and R131. -/

namespace Sys2Proof.Machine

/-- Step 2 of a frame: `DT` ticks down to 0 (R68). -/
def State.tickDt (s : State) : State := { s with dt := if s.dt = 0#8 then s.dt else s.dt - 1#8 }

/-- Step 3 of a frame: `ST` ticks down to 0, and `tone` tells whether it was nonzero before (R69). -/
def State.tickSt (s : State) : State :=
  { s with st := if s.st = 0#8 then s.st else s.st - 1#8, tone := s.st != 0#8 }

/-- FRAME_START (R64, R66 to R70): the keypad is replaced, the timers tick, the budget is added to what is left. -/
def State.frameStart (s : State) (keypadMask : Word) : State :=
  let t := { s with phase := .running, keypad := keypadMask, activity := .inFrame }
  let t := t.tickDt.tickSt
  { t with elapsedBudget := t.elapsedBudget + frameBudget }

/-- What fetch and decode give: an instruction, or the core error that ends the frame. -/
inductive Fetched where
  | instr (i : Instr)
  | error (e : CoreError)
  deriving DecidableEq, Repr

/-- The instruction bytes at an address, the high byte first (R72; spec/20_memory.md R38), decoded (R73). Fetch reads
the buffer directly, with no font or range stop. -/
def State.decodeAt (s : State) (a : Nat) : Fetched :=
  match decode (s.mem.read a) (s.mem.read (a + 1)) with
  | .instr i => .instr i
  | .invalid w0 w1 => .error (.invalidOp w0 w1)

/-- FETCH and DECODE (R72, R73), in that order (spec/60_exceptions.md R132). -/
def State.fetchDecode (s : State) : Fetched :=
  if s.pc.toNat > maxPcFetch.toNat then .error (.pcOutOfBounds s.pc) else s.decodeAt s.pc.toNat

/-- ACCOUNT (R75). -/
def State.account (s : State) (c : Nat) : State := { s with elapsedBudget := s.elapsedBudget - (c : Int) }

/-- DONE and ERROR: the transaction ends and answers the host; nothing is rolled back (R64, R77). -/
def State.endWith (s : State) (a : Answer) : State := { s with activity := .idle, lastResult := some a }

/-- STOPPED: the model stop is recorded for good and ends the transaction (R64, R78). -/
def State.recordStop (s : State) (f : Fault) : State := { s.endWith (.stop f) with stopped := some f }

/-- Copies a ROM image to 0x200 (spec/70_reset_and_hazards.md R144). -/
def State.loadRom (s : State) (bytes : List Byte) : State :=
  { s with mem := s.mem.writeBytes programBase bytes, phase := .loaded }

/-- `load_program` (spec/70_reset_and_hazards.md R144): the length is the only thing checked. -/
def State.loadProgram (s : State) (bytes : List Byte) : State :=
  if bytes.length > maxRom then s.endWith (.err (.romTooLarge bytes.length))
  else (s.loadRom bytes).endWith .ok

/-- Why a transaction is refused, if it is (R66, R78; spec/70_reset_and_hazards.md R145). -/
def State.admission (s : State) (c : HostCall) : Option Refusal :=
  match s.stopped with
  | some f => some (.afterStop f)
  | none =>
    match c, s.phase with
    | .loadProgram _, .created => none
    | .loadProgram _, p => some (.loadProgramNotAdmitted p)
    | .runFrame _, .created => some (.runFrameNotAdmitted .created)
    | .runFrame _, _ => none

/-- Begins an admitted transaction: `load_program` is done at once, `run_frame` goes through FRAME_START. -/
def State.begin (s : State) (c : HostCall) : State :=
  match c with
  | .loadProgram bytes => s.loadProgram bytes
  | .runFrame keypadMask => s.frameStart keypadMask

/-- The numeric code of a core error (spec/60_exceptions.md R128). -/
def CoreError.code : CoreError → Nat
  | .invalidOp _ _ => 1
  | .romTooLarge _ => 2
  | .pcOutOfBounds _ => 3
  | .debug => 4

/-- The numeric code of a model stop (spec/60_exceptions.md R131). -/
def Fault.code : Fault → Nat
  | .stackOverflow _ => 0x10
  | .stackUnderflow _ => 0x11
  | .memOutOfBounds _ => 0x12
  | .fontWrite _ => 0x13

end Sys2Proof.Machine
end

