-- ==== Sys2Proof/Machine/Loop.lean ====
section
/-! DEFINITION. Machine/Loop.lean: one turn of the instruction loop (spec/40_frame_cycle.md R71 to R78), one step
between transactions (R62 to R66), and `run_frame` and the outputs as the host sees them (R62, R76). -/

namespace Sys2Proof.Machine

/-- What the loop does with a handler's outcome: ACCOUNT after a next state (R75), STOPPED after a model stop, from the
state before the instruction, with nothing charged (R78). -/
def afterExec (i : Instr) (s : State) : Result → Result
  | .next t => .next (t.account (cost i))
  | .fault f => .next (s.recordStop f)
  | .refused r => .refused r

/-- One turn of the loop, from CHECK to ACCOUNT (R64, R71 to R75), or the end of the frame: `Ok` when the budget is
spent (R71), the core error when fetch or decode fails (R77). -/
def frameStep (s : State) : Result :=
  if s.elapsedBudget > 0 then
    match s.fetchDecode with
    | .instr i => afterExec i s (exec i s)
    | .error e => .next (s.endWith (.err e))
  else .next (s.endWith .ok)

/-- One step between transactions: the oldest pending transaction begins, or is refused; with none the core does
nothing (spec/60_exceptions.md R142). -/
def hostStep (s : State) : Result :=
  match s.pending with
  | [] => .next s
  | c :: rest =>
    match s.admission c with
    | some r => .refused r
    | none => .next ({ s with pending := rest }.begin c)

/-- The `while` loop of R76, and what it returns; each turn uses at least 1 of the budget (R80), so `fuel` above the
budget is never used up. -/
def frameLoop : Nat → State → Host.Outcome (State × Answer) Fault Refusal
  | 0, s => .next (s, .ok)
  | fuel + 1, s =>
    if s.elapsedBudget > 0 then
      match s.fetchDecode with
      | .error e => .next (s, .err e)
      | .instr i =>
        match exec i s with
        | .next t => frameLoop fuel (t.account (cost i))
        | .fault f => .next ({ s with stopped := some f }, .stop f)
        | .refused r => .refused r
    else .next (s, .ok)

/-- The turns a frame can take from a state, and one more (R80). -/
def State.frameFuel (s : State) : Nat := s.elapsedBudget.toNat + 1

/-- `run_frame(keypad_mask)` as one transaction (R76): the state it leaves and the answer it returns. -/
def runFrame (s : State) (keypadMask : Word) : Host.Outcome (State × Answer) Fault Refusal :=
  match s.admission (.runFrame keypadMask) with
  | some r => .refused r
  | none => frameLoop (s.frameStart keypadMask).frameFuel (s.frameStart keypadMask)

/-- The output `framebuffer`, which the host reads between transactions only (R62; spec/10_state.md R26). -/
def State.framebufferOut (s : State) : Option Framebuffer := if s.activity = .idle then some s.fb else none

/-- The output `tone`, which the host reads between transactions only (R62; spec/10_state.md R27). -/
def State.toneOut (s : State) : Option Bool := if s.activity = .idle then some s.tone else none

end Sys2Proof.Machine
end

