-- ==== Sys2Proof/Machine/Step.lean ====
section
/-! DEFINITION. Machine/Step.lean: one step of the machine (log entry 1): inside a frame one turn of the loop, between
transactions the start of the next one. -/

namespace Sys2Proof.Machine

def step (s : State) : Host.Outcome State Fault Refusal :=
  match s.activity with
  | .idle => hostStep s
  | .inFrame => frameStep s

/-- `s` in the middle of a frame, with an instruction of spec/opcode_table.json at `PC`, so that the next step runs it
(log entry 3): the two bytes, high byte first; a frame in progress with budget left; `PC` at the entry point if it
is where no fetch succeeds. -/
def State.withFetchWord (s : State) (nbits w : Nat) : State :=
  let pc := if s.pc.toNat > maxPcFetch.toNat then BitVec.ofNat 16 programBase else s.pc
  { s with
    pc := pc
    mem := (s.mem.write pc.toNat (wordHi (tableWord nbits w))).write (pc.toNat + 1) (wordLo (tableWord nbits w))
    phase := .running
    stopped := none
    activity := .inFrame
    elapsedBudget := if s.elapsedBudget > 0 then s.elapsedBudget else frameBudget }

end Sys2Proof.Machine
end

