-- ==== Sys2Proof/Safety.lean ====
section
/-! DEFINITION. Safety.lean: the terms claims use: which states are sound (`Inv`), which runs say something of the
reference core, what an instruction may write, and the byte form of DRW that spec/45_display.md R117 gives beside the
pixel form. -/

namespace Sys2Proof.Machine

/-- No model stop has happened. After one the reference core does something the document leaves undefined
(spec/60_exceptions.md R131), so a claim about the reference core says it of live states only. -/
def State.live (s : State) : Prop := s.stopped = none

/-- The last transaction ended in an error of fetch or decode (spec/40_frame_cycle.md R79). -/
def State.fetchFailed (s : State) : Prop :=
  ∃ e, s.lastResult = some (.err e) ∧ ((∃ w0 w1, e = .invalidOp w0 w1) ∨ ∃ pc, e = .pcOutOfBounds pc)

/-- The sound states: every state a session can reach from `create` (spec/10_state.md R21, R23, R29; spec/20_memory.md
R34, R41; spec/40_frame_cycle.md R79). -/
structure Inv (s : State) : Prop where
  /-- Memory is in canonical form, inside the 4096 bytes. -/
  memWf : s.mem.wf = true
  /-- No font byte has been written (R41). -/
  fontKept : ∀ a, a < fontSize → s.mem.find a = none
  /-- `SP` is 0 to 16 (R23). -/
  spLegal : s.sp.toNat ≤ stackDepth
  /-- Every stack entry is an address `2nnn` can push, or 0 (R21). -/
  stackLegal : ∀ (k : Nat) (h : k < 16), (s.stack[k]'h).toNat ≤ 0x1000
  /-- `PC` never exceeds what `Bnnn` can give (R21). -/
  pcLegal : s.pc.toNat ≤ 0x10FE
  /-- A frame runs in phase Running of a session with no stop (R66). -/
  framePhase : s.activity = .inFrame → s.phase = .running ∧ s.stopped = none
  /-- A stop is the last answer of its session (R78). -/
  stopLast : ∀ f, s.stopped = some f → s.lastResult = some (.stop f)
  /-- The budget is never overdrawn by more than one instruction (R29). -/
  budgetLow : 1 - (maxCost : Int) ≤ s.elapsedBudget
  /-- Until a core error, the budget is at most one frame's (R29). -/
  budgetHigh : ¬ s.fetchFailed → s.elapsedBudget ≤ frameBudget
  /-- Between the frames of a session without error or stop, the budget is spent (R71). -/
  budgetSpent : s.activity = .idle → s.stopped = none → ¬ s.fetchFailed → s.elapsedBudget ≤ 0
  /-- After a core error the next fetch fails in the same way, and there is budget left to try it (R79). -/
  errorStays : s.fetchFailed →
    s.phase = .running ∧ 0 < s.elapsedBudget ∧
      ∃ e, s.lastResult = some (.err e) ∧ s.fetchDecode = .error e
  /-- `Debug` is never raised (spec/60_exceptions.md R129). -/
  noDebug : s.lastResult ≠ some (.err .debug)

/-- The word decodes to the instruction, and the instruction has the cost: a row of spec/30_encoding.md R57. -/
def HasRow (i : Instr) (word : Word) (c : Nat) : Prop := decodeWord word = .instr i ∧ cost i = c

/-- From `s` to `t`, only `PC` and the `V` registers `dest` allows may change; no byte of memory does. -/
structure OnlyRegs (dest : Nibble → Prop) (s t : State) : Prop where
  rest : t = { s with v := t.v, pc := t.pc }
  regs : ∀ k, ¬ dest k → t.getV k = s.getV k
  memory : ∀ a, t.mem.read a = s.mem.read a

/-- The `V` registers an instruction may write (spec/10_state.md R16, R17). -/
def writesReg (i : Instr) (k : Nibble) : Bool :=
  match i with
  | .ldImm x _ => k == x
  | .addImm x _ => k == x
  | .ldReg x _ => k == x
  | .orReg x _ => k == x
  | .andReg x _ => k == x
  | .xorReg x _ => k == x
  | .addReg x _ => k == x || k == vf
  | .sub x _ => k == x || k == vf
  | .shr x _ => k == x || k == vf
  | .subn x _ => k == x || k == vf
  | .shl x _ => k == x || k == vf
  | .rnd x _ => k == x
  | .drw _ _ _ => k == vf
  | .ldVxDt x => k == x
  | .ldVxK x => k == x
  | .ldVxMem x => decide (k.toNat ≤ x.toNat)
  | .cls => false
  | .ret => false
  | .sys _ => false
  | .jp _ => false
  | .call _ => false
  | .seImm _ _ => false
  | .sneImm _ _ => false
  | .seReg _ _ => false
  | .sneReg _ _ => false
  | .ldI _ => false
  | .jpV0 _ => false
  | .skp _ => false
  | .sknp _ => false
  | .ldDtVx _ => false
  | .ldStVx _ => false
  | .addIVx _ => false
  | .ldFVx _ => false
  | .ldBVx _ => false
  | .ldMemVx _ => false

/-- `c ? PC + 4 : PC + 2` (spec/42_skip.md R89). -/
def skipTarget (s : State) (c : Prop) [Decidable c] : Word := if c then s.pc + 4#16 else s.pc + 2#16

/-- Pixel `(px, py)` is one that `Dxyn` flips: a set bit of sprite row `r`, column `c`, lands on it
(spec/45_display.md R116, R117). -/
def spriteCovers (s : State) (x y n : Nibble) (px : Fin 64) (py : Fin 32) : Prop :=
  ∃ r c : Nat, r < n.toNat ∧ c < 8 ∧ (s.mem.read (s.indexAddr r)).getLsbD (7 - c) = true ∧
    px.val = ((s.getV x).toNat % 64 + c) % 64 ∧ py.val = ((s.getV y).toNat % 32 + r) % 32

/-- `fb[k] <- fb[k] ^ mask`. -/
def xorByte (fb : Framebuffer) (k : Nat) (mask : Byte) : Framebuffer :=
  fb.setIfInBounds k (fb[k]?.getD 0#8 ^^^ mask)

/-- One sprite row at byte level (spec/45_display.md R117). -/
def drawRowBytes (sb : Byte) (x0 row : Nat) (d : Drawing) : Drawing :=
  let col := x0 / 8
  let off := x0 % 8
  let left := sb >>> off
  let right := sb <<< (8 - off)
  let a := 8 * row + col
  let b := 8 * row + (col + 1) % 8
  (xorByte (xorByte d.1 a left) b right,
    d.2 || (d.1[a]?.getD 0#8 &&& left) != 0#8 || (d.1[b]?.getD 0#8 &&& right) != 0#8)

/-- The first `n` sprite rows at byte level (R117). -/
def drawRowsBytes (row : Nat → Byte) (x0 y0 : Nat) (d : Drawing) : Nat → Drawing
  | 0 => d
  | n + 1 => drawRowBytes (row n) x0 ((y0 + n) % 32) (drawRowsBytes row x0 y0 d n)

end Sys2Proof.Machine
end

