-- ==== Sys2Proof/Certificates/Slice0/Obligations.lean ====
section
/-! DEFINITION. Certificates/Slice0/Obligations.lean: the statements for the provers, in the order of OBLIGATIONS.json. A
clause that rests on a decision the spec marks as its own ("OUR CHOICE", D<n> of spec/92_eei_decisions.md), or on a choice
of the model, says so and names it. -/

open Sys2Proof Sys2Proof.Machine

-- Encoding.

/-- Decoding the word of a well-formed instruction gives it back, every operand at every value (spec/30_encoding.md
R52 to R57). The strict last nibble of 5xy0 and 9xy0 is decision D19. -/
def Obligations.DecodeOfEncode : Prop :=
  ∀ i : Instr, i.wellFormed = true → decodeWord (encode i) = .instr i

/-- A word that decodes to an instruction is that instruction's word, and the instruction is well-formed: each word has
one meaning (spec/30_encoding.md R55). -/
def Obligations.EncodeOfDecode : Prop :=
  ∀ (w : Word) (i : Instr), decodeWord w = .instr i → i.wellFormed = true ∧ encode i = w

/-- The invalid words are exactly those of spec/30_encoding.md R58 (strict decoding is decision D19), and `Invalid`
carries the two bytes. -/
def Obligations.InvalidWordsAreExactly : Prop :=
  ∀ w0 w1 : Byte,
    (decode w0 w1 = .invalid w0 w1 ↔
      (hiNib w0 = 0x5#4 ∧ loNib w1 ≠ 0x0#4) ∨
      (hiNib w0 = 0x8#4 ∧ loNib w1 ∈ [0x8#4, 0x9#4, 0xA#4, 0xB#4, 0xC#4, 0xD#4, 0xF#4]) ∨
      (hiNib w0 = 0x9#4 ∧ loNib w1 ≠ 0x0#4) ∨
      (hiNib w0 = 0xE#4 ∧ w1 ∉ [0x9E#8, 0xA1#8]) ∨
      (hiNib w0 = 0xF#4 ∧
        w1 ∉ [0x07#8, 0x0A#8, 0x15#8, 0x18#8, 0x1E#8, 0x29#8, 0x33#8, 0x55#8, 0x65#8])) ∧
    ∀ a b, decode w0 w1 = .invalid a b → a = w0 ∧ b = w1

/-- Family 0 (spec/30_encoding.md R56): 0x00E0 and 0x00EE first, every other word a SYS, no word invalid. -/
def Obligations.FamilyZeroNeverInvalid : Prop :=
  ∀ w0 w1 : Byte, hiNib w0 = 0x0#4 →
    (w0 = 0x00#8 ∧ w1 = 0xE0#8 → decode w0 w1 = .instr .cls) ∧
    (w0 = 0x00#8 ∧ w1 = 0xEE#8 → decode w0 w1 = .instr .ret) ∧
    (¬ (w0 = 0x00#8 ∧ (w1 = 0xE0#8 ∨ w1 = 0xEE#8)) → decode w0 w1 = .instr (.sys (loNib w0 ++ w1)))

/-- Ten words, with the instructions the spec gives them: 0xE3A1 in the example of spec/46_timers_keys.md R123, the others
in spec/95_test_vectors.md sections 1 and 2. -/
def Obligations.SampleWordsDecode : Prop :=
  decode 0x00#8 0xE1#8 = .instr (.sys 0x0E1#12) ∧ decode 0x12#8 0x34#8 = .instr (.jp 0x234#12) ∧
  decode 0x63#8 0x42#8 = .instr (.ldImm 0x3#4 0x42#8) ∧ decode 0x51#8 0x20#8 = .instr (.seReg 0x1#4 0x2#4) ∧
  decode 0x80#8 0x14#8 = .instr (.addReg 0x0#4 0x1#4) ∧ decode 0xA1#8 0x23#8 = .instr (.ldI 0x123#12) ∧
  decode 0xD0#8 0x13#8 = .instr (.drw 0x0#4 0x1#4 0x3#4) ∧ decode 0xE3#8 0xA1#8 = .instr (.sknp 0x3#4) ∧
  decode 0xF4#8 0x29#8 = .instr (.ldFVx 0x4#4) ∧ decode 0xF2#8 0x55#8 = .instr (.ldMemVx 0x2#4)

/-- The rows of spec/30_encoding.md R57 select: a decoded word matches its instruction's row, and a word that matches a
row decodes to an instruction of that row, SYS only when neither CLS nor RET matches. -/
def Obligations.WordSelectsItsRow : Prop :=
  ∀ (w : Word) (i : Instr),
    (decodeWord w = .instr i → w &&& (tableRow i).1 = (tableRow i).2) ∧
    (w &&& (tableRow i).1 = (tableRow i).2 → (∀ nnn, i = .sys nnn → w ≠ 0x00E0#16 ∧ w ≠ 0x00EE#16) →
      ∃ j, decodeWord w = .instr j ∧ tableRow j = tableRow i)

-- The frame loop.

/-- A step inside a frame with budget left, at an address where the bytes decode to `i`, is `exec i`: its cost is
then subtracted, or its model stop recorded (spec/40_frame_cycle.md R71 to R75, R78; the record is decisions D21, D24). -/
def Obligations.StepRunsDecodedInstruction : Prop :=
  ∀ (s : State) (i : Instr), s.activity = .inFrame → 0 < s.elapsedBudget → s.pc.toNat ≤ 4094 →
    decode (s.mem.read s.pc.toNat) (s.mem.read (s.pc.toNat + 1)) = .instr i →
    (∀ t, exec i s = .next t → step s = .next { t with elapsedBudget := t.elapsedBudget - (cost i : Int) }) ∧
    (∀ f, exec i s = .fault f →
      step s = .next { s with stopped := some f, activity := .idle, lastResult := some (.stop f) })

/-- The fetch bound (spec/40_frame_cycle.md R72): above 4094 the frame ends with `PcOutOfBounds` and nothing else
changes; up to 4094 the bytes at `PC` and `PC + 1` are what is decoded, read from memory itself. -/
def Obligations.FetchBound : Prop :=
  ∀ s : State,
    (4094 < s.pc.toNat → s.activity = .inFrame → 0 < s.elapsedBudget →
      step s = .next { s with activity := .idle, lastResult := some (.err (.pcOutOfBounds s.pc)) }) ∧
    (s.pc.toNat ≤ 4094 → ∀ i,
      s.fetchDecode = .instr i ↔ decode (s.mem.read s.pc.toNat) (s.mem.read (s.pc.toNat + 1)) = .instr i)

/-- An invalid word ends the frame with `InvalidOp` and its two bytes; `PC` is not advanced and no state changes
(spec/40_frame_cycle.md R73). -/
def Obligations.InvalidWordEndsFrame : Prop :=
  ∀ (s : State) (w0 w1 : Byte), s.activity = .inFrame → 0 < s.elapsedBudget → s.pc.toNat ≤ 4094 →
    s.mem.read s.pc.toNat = w0 → s.mem.read (s.pc.toNat + 1) = w1 → decode w0 w1 = .invalid w0 w1 →
    step s = .next { s with activity := .idle, lastResult := some (.err (.invalidOp w0 w1)) }

/-- The loop test (spec/40_frame_cycle.md R71): with the budget spent the frame ends with `Ok`; with any budget left one
more instruction executes in full, whatever its cost. -/
def Obligations.LoopTest : Prop :=
  ∀ s : State, s.activity = .inFrame →
    (s.elapsedBudget ≤ 0 → step s = .next { s with activity := .idle, lastResult := some .ok }) ∧
    (0 < s.elapsedBudget → ∀ i t, s.fetchDecode = .instr i → exec i s = .next t →
      step s = .next { t with elapsedBudget := t.elapsedBudget - (cost i : Int) })

/-- Steps 1 to 3 of a frame (spec/40_frame_cycle.md R67, R68, R69): the mask replaces the keypad, each timer counts
down to 0, `tone` is whether `ST` was nonzero before. -/
def Obligations.KeypadAndTimersAtFrameStart : Prop :=
  ∀ (s : State) (m : Word) (rest : List HostCall), s.activity = .idle → s.stopped = none → s.phase ≠ .created →
    s.pending = .runFrame m :: rest →
    ∃ t, step s = .next t ∧ t.keypad = m ∧
      (s.dt ≠ 0#8 → t.dt.toNat = s.dt.toNat - 1) ∧ (s.dt = 0#8 → t.dt = 0#8) ∧
      (s.st ≠ 0#8 → t.st.toNat = s.st.toNat - 1 ∧ t.tone = true) ∧ (s.st = 0#8 → t.st = 0#8 ∧ t.tone = false)

/-- What else a frame start does (spec/40_frame_cycle.md R66, R70): 16666 is added to what the last frame left
(decision D20), the phase is Running (decision D23), and nothing but these and the keypad, the timers and `tone` changes. -/
def Obligations.FrameStartAddsBudget : Prop :=
  ∀ (s : State) (m : Word) (rest : List HostCall), s.activity = .idle → s.stopped = none → s.phase ≠ .created →
    s.pending = .runFrame m :: rest →
    ∃ t, step s = .next t ∧
      t = { s with
        keypad := t.keypad, dt := t.dt, st := t.st, tone := t.tone, elapsedBudget := s.elapsedBudget + 16666
        phase := .running, activity := .inFrame, pending := rest }

/-- Refused transactions (decisions D23, D24; spec/40_frame_cycle.md R66, R78; spec/70_reset_and_hazards.md R145): any
after a model stop, `run_frame` before a load, `load_program` after one. -/
def Obligations.OutOfOrderTransactionsRefused : Prop :=
  ∀ (s : State) (c : HostCall) (rest : List HostCall), s.activity = .idle → s.pending = c :: rest →
    (∀ f, s.stopped = some f → step s = .refused (.afterStop f)) ∧
    (∀ m, s.stopped = none → s.phase = .created → c = .runFrame m →
      step s = .refused (.runFrameNotAdmitted .created)) ∧
    (∀ bytes, s.stopped = none → s.phase ≠ .created → c = .loadProgram bytes →
      step s = .refused (.loadProgramNotAdmitted s.phase))

/-- `load_program` with at most 3584 bytes (spec/70_reset_and_hazards.md R144; the phase is decision D23): the image is
byte-exact at 0x200, every other byte and all other state is as before. -/
def Obligations.LoadProgramPlacesRom : Prop :=
  ∀ (s : State) (bytes : List Byte) (rest : List HostCall), s.activity = .idle → s.stopped = none →
    s.phase = .created → s.pending = .loadProgram bytes :: rest → bytes.length ≤ 3584 →
    ∃ t, step s = .next t ∧
      (∀ (k : Nat) (h : k < bytes.length), t.mem.read (0x200 + k) = bytes[k]) ∧
      (∀ a, a < 0x200 ∨ 0x200 + bytes.length ≤ a → t.mem.read a = s.mem.read a) ∧
      t = { s with mem := t.mem, phase := .loaded, lastResult := some .ok, pending := rest }

/-- `load_program` with more than 3584 bytes answers `RomTooLarge` and changes no state (spec/70_reset_and_hazards.md
R144); the answer and the queue of transactions are the model's interface (log entry 2). -/
def Obligations.LoadProgramTooLong : Prop :=
  ∀ (s : State) (bytes : List Byte) (rest : List HostCall), s.activity = .idle → s.stopped = none →
    s.phase = .created → s.pending = .loadProgram bytes :: rest → 3584 < bytes.length →
    step s = .next { s with lastResult := some (.err (.romTooLarge bytes.length)), pending := rest }

/-- What `create(seed)` leaves, for every seed (spec/70_reset_and_hazards.md R143; spec/10_state.md R33). `I`, `SP`,
`tone` and the budget are decision D7; FONT and INIT_MEM are free (D8, D6). -/
def Obligations.CreateLeavesResetState : Prop :=
  ∀ seed : BitVec 64, ∀ s, s = State.create seed →
    (∀ k, s.getV k = 0#8) ∧ s.i = 0#16 ∧ s.pc = 0x200#16 ∧ s.sp = 0#8 ∧
    (∀ (k : Nat) (h : k < 16), s.stack[k]'h = 0#16) ∧ s.dt = 0#8 ∧ s.st = 0#8 ∧ s.keypad = 0#16 ∧
    (∀ px py, getPixel s.fb px py = false) ∧ s.tone = false ∧ s.elapsedBudget = 0 ∧
    s.rngState = Config.rngInit seed ∧ (∀ a, a < 0x050 → s.mem.read a = Config.font a) ∧
    (∀ a, 0x050 ≤ a → s.mem.read a = Config.initMem a) ∧ s.phase = .created ∧ s.stopped = none

/-- Between transactions the core does nothing (spec/60_exceptions.md R142). -/
def Obligations.IdleCoreKeepsState : Prop :=
  ∀ s : State, s.activity = .idle → s.pending = [] → step s = .next s

/-- After a core error a `run_frame` replaces the keypad, adds to the budget, and meets the same error at its first
fetch; no instruction executes (spec/40_frame_cycle.md R79; decisions D21, D24). The timers and `tone` may change; how they
do is `KeypadAndTimersAtFrameStart`. -/
def Obligations.CoreErrorRepeats : Prop :=
  ∀ (s : State) (m : Word) (rest : List HostCall), Inv s → s.fetchFailed → s.activity = .idle →
    s.pending = .runFrame m :: rest →
    ∃ t, Host.Core.run Sys2Proof.core 2 s = .next t ∧
      t = { s with
        keypad := m, dt := t.dt, st := t.st, tone := t.tone, elapsedBudget := s.elapsedBudget + 16666
        pending := rest }

/-- A frame whose budget starts at or below -16666 executes no instruction (spec/40_frame_cycle.md R81): it ends at
once, with `Ok`. The timers and `tone` may change; how they do is `KeypadAndTimersAtFrameStart`. -/
def Obligations.StarvedFrameRunsNothing : Prop :=
  ∀ (s : State) (m : Word) (rest : List HostCall), s.activity = .idle → s.stopped = none → s.phase ≠ .created →
    s.pending = .runFrame m :: rest → s.elapsedBudget ≤ -16666 →
    ∃ t, Host.Core.run Sys2Proof.core 2 s = .next t ∧
      t = { s with
        keypad := m, dt := t.dt, st := t.st, tone := t.tone, elapsedBudget := s.elapsedBudget + 16666
        phase := .running, pending := rest, lastResult := some .ok }

/-- A frame that runs a `Dxyn` ends straight after it (spec/70_reset_and_hazards.md R151). -/
def Obligations.DrawEndsTheFrame : Prop :=
  ∀ (s t : State) (x y n : Nibble), s.activity = .inFrame → 0 < s.elapsedBudget → s.elapsedBudget ≤ 16666 →
    s.fetchDecode = .instr (.drw x y n) → exec (.drw x y n) s = .next t →
    Host.Core.run Sys2Proof.core 2 s =
      .next { t with elapsedBudget := s.elapsedBudget - 22734, activity := .idle, lastResult := some .ok }

/-- Every frame ends (spec/40_frame_cycle.md R80): from any state inside a frame, within one step more than the budget
has microseconds, the frame is over and some answer stands (log entry 2: a frame start does not clear the last one). -/
def Obligations.FrameAlwaysEnds : Prop :=
  ∀ s : State, s.activity = .inFrame →
    ∃ k t, k ≤ s.elapsedBudget.toNat + 1 ∧ Host.Core.run Sys2Proof.core k s = .next t ∧
      t.activity = .idle ∧ t.lastResult ≠ none ∧ t.pending = s.pending

/-- `run_frame` as one transaction (spec/40_frame_cycle.md R76) is what the steps do: an admitted call returns, and the
machine's steps reach the state it leaves, with its answer. -/
def Obligations.RunFrameIsTheSteps : Prop :=
  ∀ (s : State) (m : Word) (rest : List HostCall), s.activity = .idle → s.pending = .runFrame m :: rest →
    s.admission (.runFrame m) = none →
    ∃ t a, runFrame { s with pending := rest } m = .next (t, a) ∧
      ∃ k, Host.Core.run Sys2Proof.core k s = .next { t with activity := .idle, lastResult := some a }

/-- Every step keeps the sound states sound. -/
def Obligations.StepKeepsInvariant : Prop :=
  ∀ s t : State, Inv s → step s = .next t → Inv t

/-- `create` leaves a sound state, for every seed; so does reset. -/
def Obligations.CreateMeetsInvariant : Prop :=
  (∀ seed, Inv (State.create seed)) ∧ Inv State.reset

/-- No step changes a font byte (spec/20_memory.md R41; decision D5). -/
def Obligations.FontBytesNeverChange : Prop :=
  ∀ (s t : State), step s = .next t → ∀ a, a < 0x050 → t.mem.read a = s.mem.read a

/-- Who writes what (spec/10_state.md R18, R22 to R31; spec/20_memory.md R36): an instruction changes an element of the
state only if it is one of those the spec names as its writers, and no instruction changes the keypad, `tone`, the
budget, the phase, `stopped` or the transaction interface. `draws` is the model's (log entry 11). -/
def Obligations.OnlyTheirInstructionsWrite : Prop :=
  ∀ (i : Instr) (s t : State), exec i s = .next t →
    (t.stack = s.stack ∨ ∃ nnn, i = .call nnn) ∧
    (t.sp = s.sp ∨ i = .ret ∨ ∃ nnn, i = .call nnn) ∧
    (t.i = s.i ∨ (∃ nnn, i = .ldI nnn) ∨ (∃ x, i = .addIVx x) ∨ ∃ x, i = .ldFVx x) ∧
    (t.dt = s.dt ∨ ∃ x, i = .ldDtVx x) ∧
    (t.st = s.st ∨ ∃ x, i = .ldStVx x) ∧
    (t.fb = s.fb ∨ i = .cls ∨ ∃ x y n, i = .drw x y n) ∧
    (t.rngState = s.rngState ∨ ∃ x nn, i = .rnd x nn) ∧
    (t.mem = s.mem ∨ (∃ x, i = .ldBVx x) ∨ ∃ x, i = .ldMemVx x) ∧
    (t.draws = s.draws ∨ (∃ x, i = .skp x) ∨ ∃ x, i = .sknp x) ∧
    t.keypad = s.keypad ∧ t.tone = s.tone ∧ t.elapsedBudget = s.elapsedBudget ∧ t.phase = s.phase ∧
    t.stopped = s.stopped ∧ t.activity = s.activity ∧ t.pending = s.pending ∧ t.lastResult = s.lastResult

/-- An instruction changes only the `V` registers spec/10_state.md R16 and R17 name it as a writer of. -/
def Obligations.OnlyNamedRegistersWritten : Prop :=
  ∀ (i : Instr) (s t : State), exec i s = .next t → ∀ k, t.getV k ≠ s.getV k → writesReg i k = true

/-- Every handler completes or ends in a model stop of one of the six instructions spec/60_exceptions.md R131 names
(decisions D2 to D5); none is refused. -/
def Obligations.HandlersStopOnlyWhereListed : Prop :=
  ∀ (i : Instr) (s : State),
    (∃ t, exec i s = .next t) ∨
    (∃ f, exec i s = .fault f ∧
      ((i = .ret ∧ (f = .stackUnderflow s.pc ∨ f = .stackOverflow s.pc)) ∨
        (∃ nnn, i = .call nnn ∧ f = .stackOverflow s.pc) ∨
        ((∃ x y n, i = .drw x y n) ∧ ∃ a, 0xFFF < a ∧ f = .memOutOfBounds a) ∨
        ((∃ x, i = .ldVxMem x) ∧ ∃ a, 0xFFF < a ∧ f = .memOutOfBounds a) ∨
        (((∃ x, i = .ldBVx x) ∨ ∃ x, i = .ldMemVx x) ∧
          ∃ a, (0xFFF < a ∧ f = .memOutOfBounds a) ∨ (a ≤ 0x04F ∧ f = .fontWrite a))))

/-- The new `PC` of every instruction (the table of spec/10_state.md R20). -/
def Obligations.NextPcOfEachInstruction : Prop :=
  ∀ (i : Instr) (s t : State), exec i s = .next t →
    match i with
    | .jp nnn => t.pc.toNat = nnn.toNat
    | .call nnn => t.pc.toNat = nnn.toNat
    | .ret => s.stack[s.sp.toNat - 1]? = some t.pc
    | .jpV0 nnn => t.pc.toNat = (s.getV 0x0#4).toNat + nnn.toNat
    | .seImm x nn => t.pc = skipTarget s (s.getV x = nn)
    | .sneImm x nn => t.pc = skipTarget s (s.getV x ≠ nn)
    | .seReg x y => t.pc = skipTarget s (s.getV x = s.getV y)
    | .sneReg x y => t.pc = skipTarget s (s.getV x ≠ s.getV y)
    | .skp x => t.pc = skipTarget s (s.pressed (s.getV x) = true)
    | .sknp x => t.pc = skipTarget s (s.pressed (s.getV x) = false)
    | .ldVxK _ => t.pc = if s.keypad = 0#16 then s.pc else s.pc + 2#16
    | _ => t.pc = s.pc + 2#16

-- Control transfer (spec/41_flow.md).

/-- RET (R84): stops on an empty stack (decision D3), else pops; the entry keeps its value, nothing else changes. -/
def Obligations.ReturnPopsStack : Prop :=
  HasRow .ret 0x00EE#16 105 ∧ ∀ s : State,
    (s.sp = 0#8 → exec .ret s = .fault (.stackUnderflow s.pc)) ∧
    (∀ (_ : 0 < s.sp.toNat) (_ : s.sp.toNat ≤ 16),
      exec .ret s = .next { s with
        sp := BitVec.ofNat 8 (s.sp.toNat - 1), pc := s.stack[s.sp.toNat - 1]'(by omega) })

/-- JP (R85): `PC` becomes the address and nothing else changes; a later fetch fails only for 0xFFF. -/
def Obligations.JumpSetsPc : Prop :=
  ∀ (nnn : Imm12) (s : State), HasRow (.jp nnn) (0x1#4 ++ nnn) 105 ∧
    ∃ t, exec (.jp nnn) s = .next t ∧ t.pc.toNat = nnn.toNat ∧ t = { s with pc := t.pc } ∧
      (t.fetchDecode = .error (.pcOutOfBounds t.pc) ↔ nnn = 0xFFF#12)

/-- CALL (R86): stops on a full stack (decision D2), else pushes the address of the next instruction and jumps. -/
def Obligations.CallPushesReturnAddress : Prop :=
  ∀ (nnn : Imm12) (s : State), HasRow (.call nnn) (0x2#4 ++ nnn) 105 ∧
    (s.sp = 16#8 → exec (.call nnn) s = .fault (.stackOverflow s.pc)) ∧
    (∀ h : s.sp.toNat < 16,
      exec (.call nnn) s = .next { s with
        stack := s.stack.set s.sp.toNat (s.pc + 2#16) h, sp := BitVec.ofNat 8 (s.sp.toNat + 1)
        pc := BitVec.ofNat 16 nnn.toNat })

/-- JP V0 (R87): the target is `V0 + nnn`, always `V0`; the next fetch fails exactly for a sum above 4094. -/
def Obligations.JumpV0AddsOffset : Prop :=
  ∀ (nnn : Imm12) (s : State), HasRow (.jpV0 nnn) (0xB#4 ++ nnn) 105 ∧
    ∃ t, exec (.jpV0 nnn) s = .next t ∧ t.pc.toNat = (s.getV 0x0#4).toNat + nnn.toNat ∧
      t.pc.toNat ≤ 0x10FE ∧ t = { s with pc := t.pc } ∧
      (t.fetchDecode = .error (.pcOutOfBounds t.pc) ↔ 4094 < t.pc.toNat)

/-- SYS (R88): only `PC` advances. -/
def Obligations.SysIsNoOp : Prop :=
  ∀ (nnn : Imm12) (s : State),
    (nnn ≠ 0x0E0#12 → nnn ≠ 0x0EE#12 → HasRow (.sys nnn) (0x0#4 ++ nnn) 100) ∧
    exec (.sys nnn) s = .next { s with pc := s.pc + 2#16 }

-- Conditional skips (spec/42_skip.md).

/-- SE and SNE with an immediate (R90, R91): only `PC` changes, by 4 if the condition holds and by 2 if not. -/
def Obligations.SkipsOnImmediate : Prop :=
  ∀ (x : Nibble) (nn : Byte) (s : State),
    HasRow (.seImm x nn) ((0x3#4 ++ x) ++ nn) 61 ∧ HasRow (.sneImm x nn) ((0x4#4 ++ x) ++ nn) 61 ∧
    exec (.seImm x nn) s = .next { s with pc := if s.getV x = nn then s.pc + 4#16 else s.pc + 2#16 } ∧
    exec (.sneImm x nn) s = .next { s with pc := if s.getV x = nn then s.pc + 2#16 else s.pc + 4#16 }

/-- SE and SNE with a register (R92, R93): only `PC` changes; equal indexes always skip for SE and never for SNE. That
other last nibbles are invalid is decision D19. -/
def Obligations.SkipsOnRegisters : Prop :=
  ∀ (x y : Nibble) (s : State),
    HasRow (.seReg x y) ((0x5#4 ++ x) ++ (y ++ 0x0#4)) 61 ∧ HasRow (.sneReg x y) ((0x9#4 ++ x) ++ (y ++ 0x0#4)) 61 ∧
    exec (.seReg x y) s = .next { s with pc := if s.getV x = s.getV y then s.pc + 4#16 else s.pc + 2#16 } ∧
    exec (.sneReg x y) s = .next { s with pc := if s.getV x = s.getV y then s.pc + 2#16 else s.pc + 4#16 } ∧
    (x = y → exec (.seReg x y) s = .next { s with pc := s.pc + 4#16 } ∧
      exec (.sneReg x y) s = .next { s with pc := s.pc + 2#16 })

-- Register loads and arithmetic (spec/43_alu.md).

/-- LD and ADD with an immediate (R96, R97): 8-bit wraparound, no flag: `VF` changes only as the destination. -/
def Obligations.LoadAndAddImmediate : Prop :=
  ∀ (x : Nibble) (nn : Byte) (s : State),
    HasRow (.ldImm x nn) ((0x6#4 ++ x) ++ nn) 27 ∧ HasRow (.addImm x nn) ((0x7#4 ++ x) ++ nn) 45 ∧
    (∃ t, exec (.ldImm x nn) s = .next t ∧ t.getV x = nn ∧ t.pc = s.pc + 2#16 ∧ OnlyRegs (fun k => k = x) s t) ∧
    (∃ t, exec (.addImm x nn) s = .next t ∧ (t.getV x).toNat = ((s.getV x).toNat + nn.toNat) % 256 ∧
      t.pc = s.pc + 2#16 ∧ OnlyRegs (fun k => k = x) s t)

/-- LD, OR, AND and XOR of registers (R98 to R101): no flag: `VF` changes only as the destination (decision D12). The
cost of 8xy0 is a free parameter (D9). -/
def Obligations.LoadAndLogicRegisters : Prop :=
  ∀ (x y : Nibble) (s : State),
    HasRow (.ldReg x y) ((0x8#4 ++ x) ++ (y ++ 0x0#4)) cost8xy0 ∧
    HasRow (.orReg x y) ((0x8#4 ++ x) ++ (y ++ 0x1#4)) 200 ∧
    HasRow (.andReg x y) ((0x8#4 ++ x) ++ (y ++ 0x2#4)) 200 ∧
    HasRow (.xorReg x y) ((0x8#4 ++ x) ++ (y ++ 0x3#4)) 200 ∧
    (∃ t, exec (.ldReg x y) s = .next t ∧ t.getV x = s.getV y ∧ t.pc = s.pc + 2#16 ∧
      OnlyRegs (fun k => k = x) s t) ∧
    (∃ t, exec (.orReg x y) s = .next t ∧ t.getV x = s.getV x ||| s.getV y ∧ t.pc = s.pc + 2#16 ∧
      OnlyRegs (fun k => k = x) s t) ∧
    (∃ t, exec (.andReg x y) s = .next t ∧ t.getV x = s.getV x &&& s.getV y ∧ t.pc = s.pc + 2#16 ∧
      OnlyRegs (fun k => k = x) s t) ∧
    (∃ t, exec (.xorReg x y) s = .next t ∧ t.getV x = s.getV x ^^^ s.getV y ∧ t.pc = s.pc + 2#16 ∧
      OnlyRegs (fun k => k = x) s t)

/-- ADD with carry (R102): the 8-bit sum, and the carry in `VF`; with `x = 15` the carry is what remains (decision D11).
The cost is a free parameter (D9). -/
def Obligations.AddWithCarry : Prop :=
  ∀ (x y : Nibble) (s : State), HasRow (.addReg x y) ((0x8#4 ++ x) ++ (y ++ 0x4#4)) cost8xy4 ∧
    ∃ t, exec (.addReg x y) s = .next t ∧
      (x ≠ 0xF#4 → (t.getV x).toNat = ((s.getV x).toNat + (s.getV y).toNat) % 256) ∧
      (255 < (s.getV x).toNat + (s.getV y).toNat → t.getV 0xF#4 = 1#8) ∧
      ((s.getV x).toNat + (s.getV y).toNat ≤ 255 → t.getV 0xF#4 = 0#8) ∧
      t.pc = s.pc + 2#16 ∧ OnlyRegs (fun k => k = x ∨ k = 0xF#4) s t

/-- SUB and SUBN (R103, R105): the 8-bit difference, and NOT borrow in `VF`; with `x = 15` the flag is what remains
(decision D11). -/
def Obligations.SubtractWithNotBorrow : Prop :=
  ∀ (x y : Nibble) (s : State),
    HasRow (.sub x y) ((0x8#4 ++ x) ++ (y ++ 0x5#4)) 200 ∧ HasRow (.subn x y) ((0x8#4 ++ x) ++ (y ++ 0x7#4)) 200 ∧
    (∃ t, exec (.sub x y) s = .next t ∧
      (x ≠ 0xF#4 → ((t.getV x).toNat : Int) = (((s.getV x).toNat : Int) - (s.getV y).toNat) % 256) ∧
      ((s.getV y).toNat ≤ (s.getV x).toNat → t.getV 0xF#4 = 1#8) ∧
      ((s.getV x).toNat < (s.getV y).toNat → t.getV 0xF#4 = 0#8) ∧
      t.pc = s.pc + 2#16 ∧ OnlyRegs (fun k => k = x ∨ k = 0xF#4) s t) ∧
    (∃ t, exec (.subn x y) s = .next t ∧
      (x ≠ 0xF#4 → ((t.getV x).toNat : Int) = (((s.getV y).toNat : Int) - (s.getV x).toNat) % 256) ∧
      ((s.getV x).toNat ≤ (s.getV y).toNat → t.getV 0xF#4 = 1#8) ∧
      ((s.getV y).toNat < (s.getV x).toNat → t.getV 0xF#4 = 0#8) ∧
      t.pc = s.pc + 2#16 ∧ OnlyRegs (fun k => k = x ∨ k = 0xF#4) s t)

/-- SHR and SHL by one (R104, R106), whichever register SHIFT_SRC names (the free parameter of D10): the bit shifted out
goes to `VF`, and with `x = 15` it is what remains (decision D11). -/
def Obligations.ShiftsByOne : Prop :=
  ∀ (x y : Nibble) (s : State) (src : Byte),
    (Config.shiftSrc = .x → src = s.getV x) → (Config.shiftSrc = .y → src = s.getV y) →
    HasRow (.shr x y) ((0x8#4 ++ x) ++ (y ++ 0x6#4)) 200 ∧ HasRow (.shl x y) ((0x8#4 ++ x) ++ (y ++ 0xE#4)) 200 ∧
    (∃ t, exec (.shr x y) s = .next t ∧ (x ≠ 0xF#4 → (t.getV x).toNat = src.toNat / 2) ∧
      (t.getV 0xF#4).toNat = src.toNat % 2 ∧
      t.pc = s.pc + 2#16 ∧ OnlyRegs (fun k => k = x ∨ k = 0xF#4) s t) ∧
    (∃ t, exec (.shl x y) s = .next t ∧ (x ≠ 0xF#4 → (t.getV x).toNat = src.toNat * 2 % 256) ∧
      (t.getV 0xF#4).toNat = src.toNat / 128 ∧
      t.pc = s.pc + 2#16 ∧ OnlyRegs (fun k => k = x ∨ k = 0xF#4) s t)

/-- The two columns of spec/43_alu.md R94 agree for every `a` and `b`: the source's comparisons and the restated ones. -/
def Obligations.FlagComparisonsAgree : Prop :=
  ∀ a b : Byte,
    (addCarry a b = true ↔ 255 < a.toNat + b.toNat) ∧ (addCarry a b = true ↔ (addResult a b).toNat < a.toNat) ∧
    (subBorrow a b = true ↔ a.toNat < b.toNat)

/-- RND (R107): one step of the generator, whatever it is (D18), its byte under the mask; it advances with a zero mask
too. -/
def Obligations.RandomByteUnderMask : Prop :=
  ∀ (x : Nibble) (nn : Byte) (s : State), HasRow (.rnd x nn) ((0xC#4 ++ x) ++ nn) 164 ∧
    ∃ t, exec (.rnd x nn) s = .next t ∧ t.getV x = (Config.rngNext s.rngState).1 &&& nn ∧
      t.rngState = (Config.rngNext s.rngState).2 ∧ (nn = 0#8 → t.getV x = 0#8) ∧ t.pc = s.pc + 2#16 ∧
      t = { s with v := t.v, pc := t.pc, rngState := t.rngState } ∧ (∀ k, k ≠ x → t.getV k = s.getV k) ∧
      ∀ a, t.mem.read a = s.mem.read a

/-- Equal generator states give equal random bytes and equal generator states after any instruction
(spec/95_test_vectors.md S10; D18), whatever else differs. -/
def Obligations.RandomDependsOnGeneratorOnly : Prop :=
  ∀ (i : Instr) (s s' t t' : State), s.rngState = s'.rngState → exec i s = .next t → exec i s' = .next t' →
    t.rngState = t'.rngState ∧ ∀ x nn, i = .rnd x nn → t.getV x = t'.getV x

-- The index register and memory (spec/44_index_memory.md).

/-- LD I and ADD I (R109, R110): 16-bit wraparound, no flag: only `I` and `PC` change. -/
def Obligations.IndexLoadAndAdd : Prop :=
  ∀ (s : State),
    (∀ nnn : Imm12, HasRow (.ldI nnn) (0xA#4 ++ nnn) 55 ∧
      exec (.ldI nnn) s = .next { s with i := BitVec.ofNat 16 nnn.toNat, pc := s.pc + 2#16 }) ∧
    (∀ x : Nibble, HasRow (.addIVx x) ((0xF#4 ++ x) ++ 0x1E#8) 86 ∧
      ∃ t, exec (.addIVx x) s = .next t ∧ t.i.toNat = (s.i.toNat + (s.getV x).toNat) % 65536 ∧
        t = { s with i := t.i, pc := s.pc + 2#16 })

/-- LD F (R111): five times `V[x]`, not masked (decision D26). -/
def Obligations.FontGlyphAddress : Prop :=
  ∀ (x : Nibble) (s : State), HasRow (.ldFVx x) ((0xF#4 ++ x) ++ 0x29#8) 91 ∧
    ∃ t, exec (.ldFVx x) s = .next t ∧ t.i.toNat = 5 * (s.getV x).toNat ∧ t.i.toNat ≤ 1275 ∧
      t = { s with i := t.i, pc := s.pc + 2#16 }

/-- LD B (R112): hundreds, tens and ones at `I`, `I + 1`, `I + 2` (decision D14), every other byte as before, `I`
unchanged (D13); above 0xFFF or in the font it stops at the lowest failing address and writes nothing (D4, D5). -/
def Obligations.BcdStoresThreeDigits : Prop :=
  ∀ (x : Nibble) (s : State), HasRow (.ldBVx x) ((0xF#4 ++ x) ++ 0x33#8) 927 ∧
    (0x050 ≤ s.indexAddr 0 → s.indexAddr 2 ≤ 0xFFF →
      ∃ t, exec (.ldBVx x) s = .next t ∧
        (t.mem.read (s.indexAddr 0)).toNat = (s.getV x).toNat / 100 ∧
        (t.mem.read (s.indexAddr 1)).toNat = (s.getV x).toNat / 10 % 10 ∧
        (t.mem.read (s.indexAddr 2)).toNat = (s.getV x).toNat % 10 ∧
        (∀ a, a < s.indexAddr 0 ∨ s.indexAddr 2 < a → t.mem.read a = s.mem.read a) ∧
        t = { s with mem := t.mem, pc := s.pc + 2#16 }) ∧
    (0xFFF < s.indexAddr 2 → exec (.ldBVx x) s = .fault (.memOutOfBounds (max (s.indexAddr 0) 0x1000))) ∧
    (s.indexAddr 0 ≤ 0x04F → exec (.ldBVx x) s = .fault (.fontWrite (s.indexAddr 0)))

/-- LD [I], Vx (R113): `V0` to `Vx` at `I` to `I + x`, every other byte as before, `I` unchanged (decision D13); the
stops are D4 and D5. -/
def Obligations.BlockStore : Prop :=
  ∀ (x : Nibble) (s : State), HasRow (.ldMemVx x) ((0xF#4 ++ x) ++ 0x55#8) 605 ∧
    (0x050 ≤ s.indexAddr 0 → s.indexAddr x.toNat ≤ 0xFFF →
      ∃ t, exec (.ldMemVx x) s = .next t ∧
        (∀ k : Nibble, k.toNat ≤ x.toNat → t.mem.read (s.indexAddr k.toNat) = s.getV k) ∧
        (∀ a, a < s.indexAddr 0 ∨ s.indexAddr x.toNat < a → t.mem.read a = s.mem.read a) ∧
        t = { s with mem := t.mem, pc := s.pc + 2#16 }) ∧
    (0xFFF < s.indexAddr x.toNat →
      exec (.ldMemVx x) s = .fault (.memOutOfBounds (max (s.indexAddr 0) 0x1000))) ∧
    (s.indexAddr 0 ≤ 0x04F → exec (.ldMemVx x) s = .fault (.fontWrite (s.indexAddr 0)))

/-- LD Vx, [I] (R114): `V0` to `Vx` from `I` to `I + x`, the other registers as before, `I` unchanged (decision D13);
above 0xFFF it stops and writes no register (D4). -/
def Obligations.BlockLoad : Prop :=
  ∀ (x : Nibble) (s : State), HasRow (.ldVxMem x) ((0xF#4 ++ x) ++ 0x65#8) 605 ∧
    (s.indexAddr x.toNat ≤ 0xFFF →
      ∃ t, exec (.ldVxMem x) s = .next t ∧
        (∀ k : Nibble, k.toNat ≤ x.toNat → t.getV k = s.mem.read (s.indexAddr k.toNat)) ∧
        t.pc = s.pc + 2#16 ∧ OnlyRegs (fun k => k.toNat ≤ x.toNat) s t) ∧
    (0xFFF < s.indexAddr x.toNat →
      exec (.ldVxMem x) s = .fault (.memOutOfBounds (max (s.indexAddr 0) 0x1000)))

-- Display (spec/45_display.md).

/-- CLS (R115): every pixel, and every byte, of the framebuffer is 0; nothing else but `PC` changes. -/
def Obligations.ClearScreen : Prop :=
  HasRow .cls 0x00E0#16 109 ∧ ∀ s : State,
    ∃ t, exec .cls s = .next t ∧ (∀ (k : Nat) (h : k < 256), t.fb[k]'h = 0#8) ∧
      (∀ px py, getPixel t.fb px py = false) ∧ t = { s with fb := t.fb, pc := s.pc + 2#16 }

/-- DRW (R116, R119): the pixels a set sprite bit lands on are flipped, the others stay, wrapping at both edges
(decision D15) with bit 7 leftmost (D16); `VF` is 1 exactly if a set pixel was cleared; above 0xFFF it stops and draws
nothing (D4). -/
def Obligations.DrawFlipsSpritePixels : Prop :=
  ∀ (x y n : Nibble) (s : State), HasRow (.drw x y n) ((0xD#4 ++ x) ++ (y ++ n)) 22734 ∧
    (n = 0x0#4 ∨ s.indexAddr n.toNat ≤ 0x1000 →
      ∃ t, exec (.drw x y n) s = .next t ∧
        (∀ px py, spriteCovers s x y n px py → getPixel t.fb px py = !getPixel s.fb px py) ∧
        (∀ px py, ¬ spriteCovers s x y n px py → getPixel t.fb px py = getPixel s.fb px py) ∧
        ((∃ px py, spriteCovers s x y n px py ∧ getPixel s.fb px py = true) → t.getV 0xF#4 = 1#8) ∧
        ((∀ px py, spriteCovers s x y n px py → getPixel s.fb px py = false) → t.getV 0xF#4 = 0#8) ∧
        (∀ k, k ≠ 0xF#4 → t.getV k = s.getV k) ∧ (∀ a, t.mem.read a = s.mem.read a) ∧
        t = { s with v := t.v, fb := t.fb, pc := s.pc + 2#16 }) ∧
    (n ≠ 0x0#4 → 0x1000 < s.indexAddr n.toNat →
      exec (.drw x y n) s = .fault (.memOutOfBounds (max (s.indexAddr 0) 0x1000)))

/-- The byte form of R117 and the pixel form of R116 give the same framebuffer and the same collision, for every
sprite, height and start. -/
def Obligations.DrawByteFormIsPixelForm : Prop :=
  ∀ (row : Nat → Byte) (x0 y0 n : Nat) (fb : Framebuffer), x0 < 64 → y0 < 32 →
    drawRowsBytes row x0 y0 (fb, false) n = drawRows row x0 y0 (fb, false) n

/-- `Dxy0` (R118; decision D27): nothing is drawn or read, `VF` is 0, whatever `I` is. -/
def Obligations.DrawOfNoRows : Prop :=
  ∀ (x y : Nibble) (s : State),
    ∃ t, exec (.drw x y 0x0#4) s = .next t ∧ t.getV 0xF#4 = 0#8 ∧ t.fb = s.fb ∧ t.pc = s.pc + 2#16 ∧
      OnlyRegs (fun k => k = 0xF#4) s t

/-- Drawing the same sprite twice at the same place restores the framebuffer; on a clear screen the second draw of a
sprite with a set bit sets `VF` (spec/95_test_vectors.md S6). -/
def Obligations.DrawTwiceRestores : Prop :=
  ∀ (x y n : Nibble) (s t u : State), x ≠ 0xF#4 → y ≠ 0xF#4 → exec (.drw x y n) s = .next t →
    exec (.drw x y n) t = .next u →
    u.fb = s.fb ∧
    ((∀ px py, getPixel s.fb px py = false) → (∃ r, r < n.toNat ∧ s.mem.read (s.indexAddr r) ≠ 0#8) →
      t.getV 0xF#4 = 0#8 ∧ u.getV 0xF#4 = 1#8)

-- Timers and keypad (spec/46_timers_keys.md).

/-- SKP and SKNP (R122, R123): a key of 0 to 15 is tested against the latched mask; for a larger `V[x]` the test is the
free Boolean of R121 (decision D17), and both instructions complete whatever it is. -/
def Obligations.KeySkips : Prop :=
  ∀ (x : Nibble) (s : State),
    HasRow (.skp x) ((0xE#4 ++ x) ++ 0x9E#8) 73 ∧ HasRow (.sknp x) ((0xE#4 ++ x) ++ 0xA1#8) 73 ∧
    ((s.getV x).toNat ≤ 15 →
      exec (.skp x) s = .next { s with pc := skipTarget s (s.keypad.getLsbD (s.getV x).toNat = true) } ∧
      exec (.sknp x) s = .next { s with pc := skipTarget s (s.keypad.getLsbD (s.getV x).toNat = false) }) ∧
    (15 < (s.getV x).toNat →
      exec (.skp x) s = .next { s with
        pc := skipTarget s (Config.freeKey s.draws = true), draws := s.draws + 1 } ∧
      exec (.sknp x) s = .next { s with
        pc := skipTarget s (Config.freeKey s.draws = false), draws := s.draws + 1 })

/-- LD Vx, DT, LD DT, Vx and LD ST, Vx (R124, R126, R127): one register moves, `tone` does not change at once. -/
def Obligations.TimerMoves : Prop :=
  ∀ (x : Nibble) (s : State),
    HasRow (.ldVxDt x) ((0xF#4 ++ x) ++ 0x07#8) 27 ∧ HasRow (.ldDtVx x) ((0xF#4 ++ x) ++ 0x15#8) 45 ∧
    HasRow (.ldStVx x) ((0xF#4 ++ x) ++ 0x18#8) 45 ∧
    (∃ t, exec (.ldVxDt x) s = .next t ∧ t.getV x = s.dt ∧ t.pc = s.pc + 2#16 ∧ OnlyRegs (fun k => k = x) s t) ∧
    exec (.ldDtVx x) s = .next { s with dt := s.getV x, pc := s.pc + 2#16 } ∧
    exec (.ldStVx x) s = .next { s with st := s.getV x, pc := s.pc + 2#16 }

/-- LD Vx, K (R125): with no key held nothing changes, `PC` and `V[x]` included, so that it executes again; else the
lowest key held is written and `PC` advances. The cost is 200 on every execution. -/
def Obligations.KeyWaitTakesLowestKey : Prop :=
  ∀ (x : Nibble) (s : State), HasRow (.ldVxK x) ((0xF#4 ++ x) ++ 0x0A#8) 200 ∧
    (s.keypad = 0#16 → exec (.ldVxK x) s = .next s) ∧
    (∀ k : Nat, k < 16 → s.keypad.getLsbD k = true → (∀ j, j < k → s.keypad.getLsbD j = false) →
      ∃ t, exec (.ldVxK x) s = .next t ∧ (t.getV x).toNat = k ∧ t.pc = s.pc + 2#16 ∧
        OnlyRegs (fun r => r = x) s t) ∧
    (s.keypad ≠ 0#16 → ∃ t, exec (.ldVxK x) s = .next t ∧ s.keypad.getLsbD (t.getV x).toNat = true)
end

