-- ==== Sys2Proof/Laws/Decode.lean ====
section
/-! SUPPORT. Laws/Decode.lean: the bits of the three word formats of spec/30_encoding.md R54, and the fields of R52 read
back from them. -/

namespace Sys2Proof

theorem formatNnn_bit (op : Nibble) (nnn : Imm12) (j : Nat) :
    (formatNnn op nnn).getLsbD j = if j < 12 then nnn.getLsbD j else op.getLsbD (j - 12) :=
  BitVec.getLsbD_append

theorem formatXnn_bit (op x : Nibble) (nn : Byte) (j : Nat) :
    (formatXnn op x nn).getLsbD j =
      if j < 8 then nn.getLsbD j else if j < 12 then x.getLsbD (j - 8) else op.getLsbD (j - 12) := by
  have h : (formatXnn op x nn).getLsbD j = if j < 8 then nn.getLsbD j else (op ++ x).getLsbD (j - 8) :=
    BitVec.getLsbD_append
  rw [h, BitVec.getLsbD_append]
  split
  · rfl
  · rw [show j - 8 - 4 = j - 12 by omega]
    by_cases hj : j < 12
    · rw [if_pos (by omega), if_pos hj]
    · rw [if_neg (by omega), if_neg hj]

theorem formatXyn_bit (op x y n : Nibble) (j : Nat) :
    (formatXyn op x y n).getLsbD j =
      if j < 4 then n.getLsbD j else if j < 8 then y.getLsbD (j - 4)
      else if j < 12 then x.getLsbD (j - 8) else op.getLsbD (j - 12) := by
  have h : (formatXyn op x y n).getLsbD j =
      if j < 8 then (y ++ n).getLsbD j else (op ++ x).getLsbD (j - 8) := BitVec.getLsbD_append
  rw [h, BitVec.getLsbD_append, BitVec.getLsbD_append]
  by_cases h8 : j < 8
  · rw [if_pos h8]
    by_cases h4 : j < 4
    · rw [if_pos h4, if_pos h4]
    · rw [if_neg h4, if_neg h4, if_pos h8]
  · rw [if_neg h8, if_neg (show ¬ j < 4 by omega), if_neg h8, show j - 8 - 4 = j - 12 by omega]
    by_cases hj : j < 12
    · rw [if_pos (by omega), if_pos hj]
    · rw [if_neg (by omega), if_neg hj]

theorem wordHi_bit (w : Word) (j : Nat) : (wordHi w).getLsbD j = (decide (j < 8) && w.getLsbD (8 + j)) :=
  BitVec.getLsbD_extractLsb' _ _ _ _

theorem wordLo_bit (w : Word) (j : Nat) : (wordLo w).getLsbD j = (decide (j < 8) && w.getLsbD j) := by
  simp [wordLo, BitVec.getLsbD_extractLsb']

theorem hiNib_bit (b : Byte) (j : Nat) : (hiNib b).getLsbD j = (decide (j < 4) && b.getLsbD (4 + j)) :=
  BitVec.getLsbD_extractLsb' _ _ _ _

theorem loNib_bit (b : Byte) (j : Nat) : (loNib b).getLsbD j = (decide (j < 4) && b.getLsbD j) := by
  simp [loNib, BitVec.getLsbD_extractLsb']

theorem fieldNnn_bit (w0 w1 : Byte) (j : Nat) :
    (fieldNnn w0 w1).getLsbD j = if j < 8 then w1.getLsbD j else (loNib w0).getLsbD (j - 8) :=
  BitVec.getLsbD_append

/-- The opcode nibble of each format. -/
@[simp] theorem hiNib_formatNnn (op : Nibble) (nnn : Imm12) : hiNib (wordHi (formatNnn op nnn)) = op := by
  apply BitVec.eq_of_getLsbD_eq
  intro j hj
  simp only [hiNib_bit, wordHi_bit, formatNnn_bit]
  interval_cases j <;> simp

@[simp] theorem hiNib_formatXnn (op x : Nibble) (nn : Byte) : hiNib (wordHi (formatXnn op x nn)) = op := by
  apply BitVec.eq_of_getLsbD_eq
  intro j hj
  simp only [hiNib_bit, wordHi_bit, formatXnn_bit]
  interval_cases j <;> simp

@[simp] theorem hiNib_formatXyn (op x y n : Nibble) : hiNib (wordHi (formatXyn op x y n)) = op := by
  apply BitVec.eq_of_getLsbD_eq
  intro j hj
  simp only [hiNib_bit, wordHi_bit, formatXyn_bit]
  interval_cases j <;> simp

/-- The address of an `NNN` word. -/
@[simp] theorem fieldNnn_formatNnn (op : Nibble) (nnn : Imm12) :
    fieldNnn (wordHi (formatNnn op nnn)) (wordLo (formatNnn op nnn)) = nnn := by
  apply BitVec.eq_of_getLsbD_eq
  intro j hj
  simp only [fieldNnn_bit, loNib_bit, wordHi_bit, wordLo_bit, formatNnn_bit]
  interval_cases j <;> simp

/-- The register and the byte of an `XNN` word. -/
@[simp] theorem loNib_formatXnn (op x : Nibble) (nn : Byte) : loNib (wordHi (formatXnn op x nn)) = x := by
  apply BitVec.eq_of_getLsbD_eq
  intro j hj
  simp only [loNib_bit, wordHi_bit, formatXnn_bit]
  interval_cases j <;> simp

@[simp] theorem wordLo_formatXnn (op x : Nibble) (nn : Byte) : wordLo (formatXnn op x nn) = nn := by
  apply BitVec.eq_of_getLsbD_eq
  intro j hj
  simp only [wordLo_bit, formatXnn_bit]
  interval_cases j <;> simp

/-- The registers and the last nibble of an `XYN` word. -/
@[simp] theorem loNib_formatXyn (op x y n : Nibble) : loNib (wordHi (formatXyn op x y n)) = x := by
  apply BitVec.eq_of_getLsbD_eq
  intro j hj
  simp only [loNib_bit, wordHi_bit, formatXyn_bit]
  interval_cases j <;> simp

@[simp] theorem hiNibLo_formatXyn (op x y n : Nibble) : hiNib (wordLo (formatXyn op x y n)) = y := by
  apply BitVec.eq_of_getLsbD_eq
  intro j hj
  simp only [hiNib_bit, wordLo_bit, formatXyn_bit]
  interval_cases j <;> simp

@[simp] theorem loNibLo_formatXyn (op x y n : Nibble) : loNib (wordLo (formatXyn op x y n)) = n := by
  apply BitVec.eq_of_getLsbD_eq
  intro j hj
  simp only [loNib_bit, wordLo_bit, formatXyn_bit]
  interval_cases j <;> simp

end Sys2Proof
end

