-- ==== Sys2Proof/Laws/Memory.lean ====
section
/-! SUPPORT. Laws/Memory.lean: the laws of memory: what a read sees after a write, that every operation keeps the
canonical form, that the form is canonical, and where a range check stops. -/

namespace Sys2Proof.Machine

theorem Memory.find_write (m : Memory) (a k : Nat) (b : Byte) :
    (m.write a b).find k = if a = k then some b else m.find k := by
  induction m with
  | nil => simp [Memory.write, Memory.find]
  | cons c rest ih =>
    obtain ⟨k0, b0⟩ := c
    simp only [Memory.write]
    split
    · simp [Memory.find]
    · split
      · next h => subst h; simp only [Memory.find]; split <;> rfl
      · next h1 h2 =>
        simp only [Memory.find, ih]
        split
        · next h => subst h; simp [h2]
        · rfl

/-- A read after a write: the byte written at its address, what was there elsewhere. -/
@[simp] theorem Memory.read_write (m : Memory) (a k : Nat) (b : Byte) :
    (m.write a b).read k = if a = k then b else m.read k := by
  simp only [Memory.read, Memory.find_write]
  split <;> rfl

theorem Memory.read_write_same (m : Memory) (a : Nat) (b : Byte) : (m.write a b).read a = b := by simp

theorem Memory.read_write_other (m : Memory) (a k : Nat) (b : Byte) (h : a ≠ k) :
    (m.write a b).read k = m.read k := by simp [h]

@[simp] theorem Memory.read_nil (a : Nat) : Memory.read [] a = Memory.unlisted a := rfl

/-- What a block of writes leaves at an address: its byte inside the block, what was there outside. -/
theorem Memory.find_writeBytes (bs : List Byte) (m : Memory) (a k : Nat) :
    (m.writeBytes a bs).find k =
      if a ≤ k ∧ k < a + bs.length then bs[k - a]? else m.find k := by
  induction bs generalizing m a with
  | nil => rw [if_neg (by simp)]; rfl
  | cons b rest ih =>
    simp only [Memory.writeBytes, ih, List.length_cons, Memory.find_write]
    by_cases h1 : a + 1 ≤ k ∧ k < a + 1 + rest.length
    · have h2 : k - a = (k - (a + 1)) + 1 := by omega
      rw [if_pos h1, if_pos (by omega), h2, List.getElem?_cons_succ]
    · rw [if_neg h1]
      by_cases h3 : a = k
      · subst h3; simp
      · rw [if_neg h3, if_neg (by omega)]

theorem Memory.risingAbove_write (lo a : Nat) (b : Byte) (m : Memory) (hlo : lo < a)
    (h : m.risingAbove lo = true) : (m.write a b).risingAbove lo = true := by
  induction m generalizing lo with
  | nil => simp [Memory.write, Memory.risingAbove, hlo]
  | cons c rest ih =>
    obtain ⟨k, v⟩ := c
    simp only [Memory.risingAbove, Bool.and_eq_true, decide_eq_true_eq] at h
    simp only [Memory.write]
    split
    · next h1 => simp [Memory.risingAbove, hlo, h1, h.2]
    · split
      · next h2 => subst h2; simp [Memory.risingAbove, h.1, h.2]
      · next h1 h2 => simp [Memory.risingAbove, h.1, ih k (by omega) h.2]

theorem Memory.rising_write (a : Nat) (b : Byte) (m : Memory) (h : m.rising = true) :
    (m.write a b).rising = true := by
  cases m with
  | nil => rfl
  | cons c rest =>
    obtain ⟨k, v⟩ := c
    simp only [Memory.rising] at h
    simp only [Memory.write]
    split
    · next h1 => simp [Memory.rising, Memory.risingAbove, h1, h]
    · split
      · next h2 => subst h2; simpa [Memory.rising] using h
      · next h1 h2 => simpa [Memory.rising] using Memory.risingAbove_write k a b rest (by omega) h

theorem Memory.allBelow_write (n a : Nat) (b : Byte) (m : Memory) (ha : a < n)
    (h : m.allBelow n = true) : (m.write a b).allBelow n = true := by
  induction m with
  | nil => simp [Memory.write, Memory.allBelow, ha]
  | cons c rest ih =>
    obtain ⟨k, v⟩ := c
    simp only [Memory.allBelow, List.all_cons, Bool.and_eq_true, decide_eq_true_eq] at h ih ⊢
    simp only [Memory.write]
    split
    · simp [ha, h.1, h.2]
    · split
      · simp [ha, h.2]
      · simp [h.1, ih h.2]

/-- A write inside the 4096 bytes keeps the canonical form. -/
theorem Memory.wf_write (m : Memory) (a : Nat) (b : Byte) (ha : a < memSize) (h : m.wf = true) :
    (m.write a b).wf = true := by
  simp only [Memory.wf, Bool.and_eq_true] at h ⊢
  exact ⟨Memory.rising_write a b m h.1, Memory.allBelow_write memSize a b m ha h.2⟩

/-- A block of writes inside the 4096 bytes keeps the canonical form. -/
theorem Memory.wf_writeBytes (bs : List Byte) (m : Memory) (a : Nat) (ha : a + bs.length ≤ memSize)
    (h : m.wf = true) : (m.writeBytes a bs).wf = true := by
  induction bs generalizing m a with
  | nil => exact h
  | cons b rest ih =>
    simp only [List.length_cons] at ha
    exact ih (m.write a b) (a + 1) (by omega) (Memory.wf_write m a b (by omega) h)

theorem Memory.wf_create (seed : BitVec 64) : (State.create seed).mem.wf = true := rfl

theorem Memory.find_of_risingAbove (lo a : Nat) (m : Memory) (ha : a ≤ lo) (h : m.risingAbove lo = true) :
    m.find a = none := by
  induction m generalizing lo with
  | nil => rfl
  | cons c rest ih =>
    obtain ⟨k, v⟩ := c
    simp only [Memory.risingAbove, Bool.and_eq_true, decide_eq_true_eq] at h
    simp only [Memory.find, if_neg (show ¬ k = a by omega)]
    exact ih k (by omega) h.2

theorem Memory.eq_of_find_above (lo : Nat) (m m' : Memory) (h : m.risingAbove lo = true)
    (h' : m'.risingAbove lo = true) (hf : ∀ a, m.find a = m'.find a) : m = m' := by
  induction m generalizing lo m' with
  | nil =>
    cases m' with
    | nil => rfl
    | cons c rest => simpa [Memory.find] using hf c.1
  | cons c rest ih =>
    obtain ⟨k, v⟩ := c
    cases m' with
    | nil => simpa [Memory.find] using hf k
    | cons c' rest' =>
      obtain ⟨k', v'⟩ := c'
      simp only [Memory.risingAbove, Bool.and_eq_true, decide_eq_true_eq] at h h'
      have hk : k = k' := by
        rcases Nat.lt_trichotomy k k' with hlt | heq | hgt
        · have := hf k
          simp [Memory.find, show ¬ k' = k by omega,
            Memory.find_of_risingAbove k' k rest' (by omega) h'.2] at this
        · exact heq
        · have := hf k'
          simp [Memory.find, show ¬ k = k' by omega,
            Memory.find_of_risingAbove k k' rest (by omega) h.2] at this
      subst hk
      have hv : v = v' := by simpa [Memory.find] using hf k
      subst hv
      have hr : rest = rest' := ih k rest' h.2 h'.2 fun a => by
        by_cases ha : k = a
        · subst ha
          rw [Memory.find_of_risingAbove k k rest (Nat.le_refl k) h.2,
            Memory.find_of_risingAbove k k rest' (Nat.le_refl k) h'.2]
        · simpa [Memory.find, ha] using hf a
      rw [hr]

/-- The form is canonical: two lists in rising order with the same written bytes at every address are the same list. -/
theorem Memory.eq_of_find (m m' : Memory) (h : m.rising = true) (h' : m'.rising = true)
    (hf : ∀ a, m.find a = m'.find a) : m = m' := by
  cases m with
  | nil =>
    cases m' with
    | nil => rfl
    | cons c rest => simpa [Memory.find] using hf c.1
  | cons c rest =>
    obtain ⟨k, v⟩ := c
    cases m' with
    | nil => simpa [Memory.find] using hf k
    | cons c' rest' =>
      obtain ⟨k', v'⟩ := c'
      simp only [Memory.rising] at h h'
      have hk : k = k' := by
        rcases Nat.lt_trichotomy k k' with hlt | heq | hgt
        · have := hf k
          simp [Memory.find, show ¬ k' = k by omega,
            Memory.find_of_risingAbove k' k rest' (by omega) h'] at this
        · exact heq
        · have := hf k'
          simp [Memory.find, show ¬ k = k' by omega,
            Memory.find_of_risingAbove k k' rest (by omega) h] at this
      subst hk
      have hv : v = v' := by simpa [Memory.find] using hf k
      subst hv
      have hr : rest = rest' := Memory.eq_of_find_above k rest rest' h h' fun a => by
        by_cases ha : k = a
        · subst ha
          rw [Memory.find_of_risingAbove k k rest (Nat.le_refl k) h,
            Memory.find_of_risingAbove k k rest' (Nat.le_refl k) h']
        · simpa [Memory.find, ha] using hf a
      rw [hr]

/-- Where a range of reads stops (spec/20_memory.md R45, R47): nowhere inside the 4096 bytes, else at the lowest address
above 0xFFF. -/
theorem readRangeStop_eq (base n : Nat) :
    readRangeStop base n =
      if n = 0 ∨ base + n ≤ memSize then none else some (.memOutOfBounds (max base memSize)) := by
  unfold readRangeStop
  induction n generalizing base with
  | zero => simp [firstStop]
  | succ n ih =>
    simp only [firstStop, ih, memReadStop, memSize]
    by_cases h : base > 0xFFF
    · rw [if_pos h, Option.some_or, if_neg (by omega), Nat.max_eq_left (by omega)]
    · rw [if_neg h, Option.none_or]
      by_cases h2 : base + (n + 1) ≤ 0x1000
      · rw [if_pos (by omega), if_pos (by omega)]
      · rw [if_neg (by omega), if_neg (by omega), Nat.max_eq_right (by omega), Nat.max_eq_right (by omega)]

/-- Where a range of writes stops (spec/20_memory.md R46, R47): above 0xFFF first, then in the font at its lowest
address. -/
theorem writeRangeStop_eq (base n : Nat) :
    writeRangeStop base n =
      if n = 0 then none
      else if base + n > memSize then some (.memOutOfBounds (max base memSize))
      else if base < fontSize then some (.fontWrite base)
      else none := by
  have hw : ∀ n base, base + n ≤ memSize →
      firstStop memWriteStop base n = if n ≠ 0 ∧ base < fontSize then some (.fontWrite base) else none := by
    intro n
    induction n with
    | zero => simp [firstStop]
    | succ n ih =>
      intro base hb
      simp only [memSize] at hb
      rw [firstStop, ih (base + 1) (by simp only [memSize]; omega)]
      simp only [memWriteStop, fontSize, if_neg (show ¬ base > 0xFFF by omega)]
      by_cases h : base ≤ 0x04F
      · rw [if_pos h, Option.some_or, if_pos (by omega)]
      · rw [if_neg h, if_neg (by omega), if_neg (by omega)]
        rfl
  have hr := readRangeStop_eq base n
  unfold readRangeStop at hr
  unfold writeRangeStop
  rw [hr]
  by_cases h0 : n = 0
  · subst h0; simp [firstStop]
  · by_cases h1 : base + n > memSize
    · rw [if_neg (by omega), if_neg h0, if_pos h1]; rfl
    · rw [if_pos (by omega), hw n base (by omega), if_neg h0, if_neg h1]
      simp [h0]

/-- A range inside the 4096 bytes can be read. -/
theorem readRangeStop_inside (base n : Nat) (h : base + n ≤ memSize) : readRangeStop base n = none := by
  rw [readRangeStop_eq, if_pos (.inr h)]

/-- A range that goes above 0xFFF cannot be read. -/
theorem readRangeStop_outside (base n : Nat) (h0 : n ≠ 0) (h : memSize < base + n) :
    readRangeStop base n = some (.memOutOfBounds (max base memSize)) := by
  rw [readRangeStop_eq, if_neg (by omega)]

/-- A range inside the 4096 bytes and outside the font can be written. -/
theorem writeRangeStop_inside (base n : Nat) (hf : fontSize ≤ base) (h : base + n ≤ memSize) :
    writeRangeStop base n = none := by
  rw [writeRangeStop_eq]
  split
  · rfl
  · rw [if_neg (by omega), if_neg (by omega)]

/-- A range that goes above 0xFFF cannot be written. -/
theorem writeRangeStop_outside (base n : Nat) (h0 : n ≠ 0) (h : memSize < base + n) :
    writeRangeStop base n = some (.memOutOfBounds (max base memSize)) := by
  rw [writeRangeStop_eq, if_neg h0, if_pos h]

/-- A range that starts in the font cannot be written. -/
theorem writeRangeStop_font (base n : Nat) (h0 : n ≠ 0) (hf : base < fontSize) (h : base + n ≤ memSize) :
    writeRangeStop base n = some (.fontWrite base) := by
  rw [writeRangeStop_eq, if_neg h0, if_neg (by omega), if_pos hf]

end Sys2Proof.Machine
end

