-- ==== Sys2Proof/Laws/State.lean ====
section
/-! SUPPORT. Laws/State.lean: the figures of Params.lean as numbers; for each update of the state, what each field is after it; all true by unfolding, so that
no proof unfolds a record update again. -/

namespace Sys2Proof.Machine

@[simp] theorem memSize_eq : memSize = 4096 := rfl
@[simp] theorem fontBase_eq : fontBase = 0#16 := rfl
@[simp] theorem fontSize_eq : fontSize = 80 := rfl
@[simp] theorem programBase_eq : programBase = 512 := rfl
@[simp] theorem maxRom_eq : maxRom = 3584 := rfl
@[simp] theorem stackDepth_eq : stackDepth = 16 := rfl
@[simp] theorem frameBudget_eq : frameBudget = 16666 := rfl
@[simp] theorem maxPcFetch_eq : maxPcFetch = 4094#16 := rfl

@[simp] theorem State.setV_v (s : State) (x : Nibble) (b : Byte) : (s.setV x b).v = s.v.set x.toNat b x.isLt := rfl
@[simp] theorem State.setV_i (s : State) (x : Nibble) (b : Byte) : (s.setV x b).i = s.i := rfl
@[simp] theorem State.setV_pc (s : State) (x : Nibble) (b : Byte) : (s.setV x b).pc = s.pc := rfl
@[simp] theorem State.setV_sp (s : State) (x : Nibble) (b : Byte) : (s.setV x b).sp = s.sp := rfl
@[simp] theorem State.setV_stack (s : State) (x : Nibble) (b : Byte) : (s.setV x b).stack = s.stack := rfl
@[simp] theorem State.setV_dt (s : State) (x : Nibble) (b : Byte) : (s.setV x b).dt = s.dt := rfl
@[simp] theorem State.setV_st (s : State) (x : Nibble) (b : Byte) : (s.setV x b).st = s.st := rfl
@[simp] theorem State.setV_keypad (s : State) (x : Nibble) (b : Byte) : (s.setV x b).keypad = s.keypad := rfl
@[simp] theorem State.setV_fb (s : State) (x : Nibble) (b : Byte) : (s.setV x b).fb = s.fb := rfl
@[simp] theorem State.setV_tone (s : State) (x : Nibble) (b : Byte) : (s.setV x b).tone = s.tone := rfl
@[simp] theorem State.setV_elapsedBudget (s : State) (x : Nibble) (b : Byte) : (s.setV x b).elapsedBudget = s.elapsedBudget := rfl
@[simp] theorem State.setV_rngState (s : State) (x : Nibble) (b : Byte) : (s.setV x b).rngState = s.rngState := rfl
@[simp] theorem State.setV_mem (s : State) (x : Nibble) (b : Byte) : (s.setV x b).mem = s.mem := rfl
@[simp] theorem State.setV_phase (s : State) (x : Nibble) (b : Byte) : (s.setV x b).phase = s.phase := rfl
@[simp] theorem State.setV_stopped (s : State) (x : Nibble) (b : Byte) : (s.setV x b).stopped = s.stopped := rfl
@[simp] theorem State.setV_activity (s : State) (x : Nibble) (b : Byte) : (s.setV x b).activity = s.activity := rfl
@[simp] theorem State.setV_pending (s : State) (x : Nibble) (b : Byte) : (s.setV x b).pending = s.pending := rfl
@[simp] theorem State.setV_lastResult (s : State) (x : Nibble) (b : Byte) : (s.setV x b).lastResult = s.lastResult := rfl
@[simp] theorem State.setV_draws (s : State) (x : Nibble) (b : Byte) : (s.setV x b).draws = s.draws := rfl

@[simp] theorem State.advance_v (s : State) : (s.advance).v = s.v := rfl
@[simp] theorem State.advance_i (s : State) : (s.advance).i = s.i := rfl
@[simp] theorem State.advance_pc (s : State) : (s.advance).pc = s.pc + 2#16 := rfl
@[simp] theorem State.advance_sp (s : State) : (s.advance).sp = s.sp := rfl
@[simp] theorem State.advance_stack (s : State) : (s.advance).stack = s.stack := rfl
@[simp] theorem State.advance_dt (s : State) : (s.advance).dt = s.dt := rfl
@[simp] theorem State.advance_st (s : State) : (s.advance).st = s.st := rfl
@[simp] theorem State.advance_keypad (s : State) : (s.advance).keypad = s.keypad := rfl
@[simp] theorem State.advance_fb (s : State) : (s.advance).fb = s.fb := rfl
@[simp] theorem State.advance_tone (s : State) : (s.advance).tone = s.tone := rfl
@[simp] theorem State.advance_elapsedBudget (s : State) : (s.advance).elapsedBudget = s.elapsedBudget := rfl
@[simp] theorem State.advance_rngState (s : State) : (s.advance).rngState = s.rngState := rfl
@[simp] theorem State.advance_mem (s : State) : (s.advance).mem = s.mem := rfl
@[simp] theorem State.advance_phase (s : State) : (s.advance).phase = s.phase := rfl
@[simp] theorem State.advance_stopped (s : State) : (s.advance).stopped = s.stopped := rfl
@[simp] theorem State.advance_activity (s : State) : (s.advance).activity = s.activity := rfl
@[simp] theorem State.advance_pending (s : State) : (s.advance).pending = s.pending := rfl
@[simp] theorem State.advance_lastResult (s : State) : (s.advance).lastResult = s.lastResult := rfl
@[simp] theorem State.advance_draws (s : State) : (s.advance).draws = s.draws := rfl
@[simp] theorem State.advance_getV (s : State) (k : Nibble) : (s.advance).getV k = s.getV k := rfl

@[simp] theorem State.skipIf_v (s : State) (c : Bool) : (s.skipIf c).v = s.v := rfl
@[simp] theorem State.skipIf_i (s : State) (c : Bool) : (s.skipIf c).i = s.i := rfl
@[simp] theorem State.skipIf_pc (s : State) (c : Bool) : (s.skipIf c).pc = if c then s.pc + 4#16 else s.pc + 2#16 := rfl
@[simp] theorem State.skipIf_sp (s : State) (c : Bool) : (s.skipIf c).sp = s.sp := rfl
@[simp] theorem State.skipIf_stack (s : State) (c : Bool) : (s.skipIf c).stack = s.stack := rfl
@[simp] theorem State.skipIf_dt (s : State) (c : Bool) : (s.skipIf c).dt = s.dt := rfl
@[simp] theorem State.skipIf_st (s : State) (c : Bool) : (s.skipIf c).st = s.st := rfl
@[simp] theorem State.skipIf_keypad (s : State) (c : Bool) : (s.skipIf c).keypad = s.keypad := rfl
@[simp] theorem State.skipIf_fb (s : State) (c : Bool) : (s.skipIf c).fb = s.fb := rfl
@[simp] theorem State.skipIf_tone (s : State) (c : Bool) : (s.skipIf c).tone = s.tone := rfl
@[simp] theorem State.skipIf_elapsedBudget (s : State) (c : Bool) : (s.skipIf c).elapsedBudget = s.elapsedBudget := rfl
@[simp] theorem State.skipIf_rngState (s : State) (c : Bool) : (s.skipIf c).rngState = s.rngState := rfl
@[simp] theorem State.skipIf_mem (s : State) (c : Bool) : (s.skipIf c).mem = s.mem := rfl
@[simp] theorem State.skipIf_phase (s : State) (c : Bool) : (s.skipIf c).phase = s.phase := rfl
@[simp] theorem State.skipIf_stopped (s : State) (c : Bool) : (s.skipIf c).stopped = s.stopped := rfl
@[simp] theorem State.skipIf_activity (s : State) (c : Bool) : (s.skipIf c).activity = s.activity := rfl
@[simp] theorem State.skipIf_pending (s : State) (c : Bool) : (s.skipIf c).pending = s.pending := rfl
@[simp] theorem State.skipIf_lastResult (s : State) (c : Bool) : (s.skipIf c).lastResult = s.lastResult := rfl
@[simp] theorem State.skipIf_draws (s : State) (c : Bool) : (s.skipIf c).draws = s.draws := rfl
@[simp] theorem State.skipIf_getV (s : State) (c : Bool) (k : Nibble) : (s.skipIf c).getV k = s.getV k := rfl

@[simp] theorem State.jump_v (s : State) (a : Word) : (s.jump a).v = s.v := rfl
@[simp] theorem State.jump_i (s : State) (a : Word) : (s.jump a).i = s.i := rfl
@[simp] theorem State.jump_pc (s : State) (a : Word) : (s.jump a).pc = a := rfl
@[simp] theorem State.jump_sp (s : State) (a : Word) : (s.jump a).sp = s.sp := rfl
@[simp] theorem State.jump_stack (s : State) (a : Word) : (s.jump a).stack = s.stack := rfl
@[simp] theorem State.jump_dt (s : State) (a : Word) : (s.jump a).dt = s.dt := rfl
@[simp] theorem State.jump_st (s : State) (a : Word) : (s.jump a).st = s.st := rfl
@[simp] theorem State.jump_keypad (s : State) (a : Word) : (s.jump a).keypad = s.keypad := rfl
@[simp] theorem State.jump_fb (s : State) (a : Word) : (s.jump a).fb = s.fb := rfl
@[simp] theorem State.jump_tone (s : State) (a : Word) : (s.jump a).tone = s.tone := rfl
@[simp] theorem State.jump_elapsedBudget (s : State) (a : Word) : (s.jump a).elapsedBudget = s.elapsedBudget := rfl
@[simp] theorem State.jump_rngState (s : State) (a : Word) : (s.jump a).rngState = s.rngState := rfl
@[simp] theorem State.jump_mem (s : State) (a : Word) : (s.jump a).mem = s.mem := rfl
@[simp] theorem State.jump_phase (s : State) (a : Word) : (s.jump a).phase = s.phase := rfl
@[simp] theorem State.jump_stopped (s : State) (a : Word) : (s.jump a).stopped = s.stopped := rfl
@[simp] theorem State.jump_activity (s : State) (a : Word) : (s.jump a).activity = s.activity := rfl
@[simp] theorem State.jump_pending (s : State) (a : Word) : (s.jump a).pending = s.pending := rfl
@[simp] theorem State.jump_lastResult (s : State) (a : Word) : (s.jump a).lastResult = s.lastResult := rfl
@[simp] theorem State.jump_draws (s : State) (a : Word) : (s.jump a).draws = s.draws := rfl
@[simp] theorem State.jump_getV (s : State) (a : Word) (k : Nibble) : (s.jump a).getV k = s.getV k := rfl

@[simp] theorem State.setI_v (s : State) (a : Word) : (s.setI a).v = s.v := rfl
@[simp] theorem State.setI_i (s : State) (a : Word) : (s.setI a).i = a := rfl
@[simp] theorem State.setI_pc (s : State) (a : Word) : (s.setI a).pc = s.pc := rfl
@[simp] theorem State.setI_sp (s : State) (a : Word) : (s.setI a).sp = s.sp := rfl
@[simp] theorem State.setI_stack (s : State) (a : Word) : (s.setI a).stack = s.stack := rfl
@[simp] theorem State.setI_dt (s : State) (a : Word) : (s.setI a).dt = s.dt := rfl
@[simp] theorem State.setI_st (s : State) (a : Word) : (s.setI a).st = s.st := rfl
@[simp] theorem State.setI_keypad (s : State) (a : Word) : (s.setI a).keypad = s.keypad := rfl
@[simp] theorem State.setI_fb (s : State) (a : Word) : (s.setI a).fb = s.fb := rfl
@[simp] theorem State.setI_tone (s : State) (a : Word) : (s.setI a).tone = s.tone := rfl
@[simp] theorem State.setI_elapsedBudget (s : State) (a : Word) : (s.setI a).elapsedBudget = s.elapsedBudget := rfl
@[simp] theorem State.setI_rngState (s : State) (a : Word) : (s.setI a).rngState = s.rngState := rfl
@[simp] theorem State.setI_mem (s : State) (a : Word) : (s.setI a).mem = s.mem := rfl
@[simp] theorem State.setI_phase (s : State) (a : Word) : (s.setI a).phase = s.phase := rfl
@[simp] theorem State.setI_stopped (s : State) (a : Word) : (s.setI a).stopped = s.stopped := rfl
@[simp] theorem State.setI_activity (s : State) (a : Word) : (s.setI a).activity = s.activity := rfl
@[simp] theorem State.setI_pending (s : State) (a : Word) : (s.setI a).pending = s.pending := rfl
@[simp] theorem State.setI_lastResult (s : State) (a : Word) : (s.setI a).lastResult = s.lastResult := rfl
@[simp] theorem State.setI_draws (s : State) (a : Word) : (s.setI a).draws = s.draws := rfl
@[simp] theorem State.setI_getV (s : State) (a : Word) (k : Nibble) : (s.setI a).getV k = s.getV k := rfl

@[simp] theorem State.setDt_v (s : State) (b : Byte) : (s.setDt b).v = s.v := rfl
@[simp] theorem State.setDt_i (s : State) (b : Byte) : (s.setDt b).i = s.i := rfl
@[simp] theorem State.setDt_pc (s : State) (b : Byte) : (s.setDt b).pc = s.pc := rfl
@[simp] theorem State.setDt_sp (s : State) (b : Byte) : (s.setDt b).sp = s.sp := rfl
@[simp] theorem State.setDt_stack (s : State) (b : Byte) : (s.setDt b).stack = s.stack := rfl
@[simp] theorem State.setDt_dt (s : State) (b : Byte) : (s.setDt b).dt = b := rfl
@[simp] theorem State.setDt_st (s : State) (b : Byte) : (s.setDt b).st = s.st := rfl
@[simp] theorem State.setDt_keypad (s : State) (b : Byte) : (s.setDt b).keypad = s.keypad := rfl
@[simp] theorem State.setDt_fb (s : State) (b : Byte) : (s.setDt b).fb = s.fb := rfl
@[simp] theorem State.setDt_tone (s : State) (b : Byte) : (s.setDt b).tone = s.tone := rfl
@[simp] theorem State.setDt_elapsedBudget (s : State) (b : Byte) : (s.setDt b).elapsedBudget = s.elapsedBudget := rfl
@[simp] theorem State.setDt_rngState (s : State) (b : Byte) : (s.setDt b).rngState = s.rngState := rfl
@[simp] theorem State.setDt_mem (s : State) (b : Byte) : (s.setDt b).mem = s.mem := rfl
@[simp] theorem State.setDt_phase (s : State) (b : Byte) : (s.setDt b).phase = s.phase := rfl
@[simp] theorem State.setDt_stopped (s : State) (b : Byte) : (s.setDt b).stopped = s.stopped := rfl
@[simp] theorem State.setDt_activity (s : State) (b : Byte) : (s.setDt b).activity = s.activity := rfl
@[simp] theorem State.setDt_pending (s : State) (b : Byte) : (s.setDt b).pending = s.pending := rfl
@[simp] theorem State.setDt_lastResult (s : State) (b : Byte) : (s.setDt b).lastResult = s.lastResult := rfl
@[simp] theorem State.setDt_draws (s : State) (b : Byte) : (s.setDt b).draws = s.draws := rfl
@[simp] theorem State.setDt_getV (s : State) (b : Byte) (k : Nibble) : (s.setDt b).getV k = s.getV k := rfl

@[simp] theorem State.setSt_v (s : State) (b : Byte) : (s.setSt b).v = s.v := rfl
@[simp] theorem State.setSt_i (s : State) (b : Byte) : (s.setSt b).i = s.i := rfl
@[simp] theorem State.setSt_pc (s : State) (b : Byte) : (s.setSt b).pc = s.pc := rfl
@[simp] theorem State.setSt_sp (s : State) (b : Byte) : (s.setSt b).sp = s.sp := rfl
@[simp] theorem State.setSt_stack (s : State) (b : Byte) : (s.setSt b).stack = s.stack := rfl
@[simp] theorem State.setSt_dt (s : State) (b : Byte) : (s.setSt b).dt = s.dt := rfl
@[simp] theorem State.setSt_st (s : State) (b : Byte) : (s.setSt b).st = b := rfl
@[simp] theorem State.setSt_keypad (s : State) (b : Byte) : (s.setSt b).keypad = s.keypad := rfl
@[simp] theorem State.setSt_fb (s : State) (b : Byte) : (s.setSt b).fb = s.fb := rfl
@[simp] theorem State.setSt_tone (s : State) (b : Byte) : (s.setSt b).tone = s.tone := rfl
@[simp] theorem State.setSt_elapsedBudget (s : State) (b : Byte) : (s.setSt b).elapsedBudget = s.elapsedBudget := rfl
@[simp] theorem State.setSt_rngState (s : State) (b : Byte) : (s.setSt b).rngState = s.rngState := rfl
@[simp] theorem State.setSt_mem (s : State) (b : Byte) : (s.setSt b).mem = s.mem := rfl
@[simp] theorem State.setSt_phase (s : State) (b : Byte) : (s.setSt b).phase = s.phase := rfl
@[simp] theorem State.setSt_stopped (s : State) (b : Byte) : (s.setSt b).stopped = s.stopped := rfl
@[simp] theorem State.setSt_activity (s : State) (b : Byte) : (s.setSt b).activity = s.activity := rfl
@[simp] theorem State.setSt_pending (s : State) (b : Byte) : (s.setSt b).pending = s.pending := rfl
@[simp] theorem State.setSt_lastResult (s : State) (b : Byte) : (s.setSt b).lastResult = s.lastResult := rfl
@[simp] theorem State.setSt_draws (s : State) (b : Byte) : (s.setSt b).draws = s.draws := rfl
@[simp] theorem State.setSt_getV (s : State) (b : Byte) (k : Nibble) : (s.setSt b).getV k = s.getV k := rfl

@[simp] theorem State.storeByte_v (s : State) (a : Nat) (b : Byte) : (s.storeByte a b).v = s.v := rfl
@[simp] theorem State.storeByte_i (s : State) (a : Nat) (b : Byte) : (s.storeByte a b).i = s.i := rfl
@[simp] theorem State.storeByte_pc (s : State) (a : Nat) (b : Byte) : (s.storeByte a b).pc = s.pc := rfl
@[simp] theorem State.storeByte_sp (s : State) (a : Nat) (b : Byte) : (s.storeByte a b).sp = s.sp := rfl
@[simp] theorem State.storeByte_stack (s : State) (a : Nat) (b : Byte) : (s.storeByte a b).stack = s.stack := rfl
@[simp] theorem State.storeByte_dt (s : State) (a : Nat) (b : Byte) : (s.storeByte a b).dt = s.dt := rfl
@[simp] theorem State.storeByte_st (s : State) (a : Nat) (b : Byte) : (s.storeByte a b).st = s.st := rfl
@[simp] theorem State.storeByte_keypad (s : State) (a : Nat) (b : Byte) : (s.storeByte a b).keypad = s.keypad := rfl
@[simp] theorem State.storeByte_fb (s : State) (a : Nat) (b : Byte) : (s.storeByte a b).fb = s.fb := rfl
@[simp] theorem State.storeByte_tone (s : State) (a : Nat) (b : Byte) : (s.storeByte a b).tone = s.tone := rfl
@[simp] theorem State.storeByte_elapsedBudget (s : State) (a : Nat) (b : Byte) : (s.storeByte a b).elapsedBudget = s.elapsedBudget := rfl
@[simp] theorem State.storeByte_rngState (s : State) (a : Nat) (b : Byte) : (s.storeByte a b).rngState = s.rngState := rfl
@[simp] theorem State.storeByte_mem (s : State) (a : Nat) (b : Byte) : (s.storeByte a b).mem = s.mem.write a b := rfl
@[simp] theorem State.storeByte_phase (s : State) (a : Nat) (b : Byte) : (s.storeByte a b).phase = s.phase := rfl
@[simp] theorem State.storeByte_stopped (s : State) (a : Nat) (b : Byte) : (s.storeByte a b).stopped = s.stopped := rfl
@[simp] theorem State.storeByte_activity (s : State) (a : Nat) (b : Byte) : (s.storeByte a b).activity = s.activity := rfl
@[simp] theorem State.storeByte_pending (s : State) (a : Nat) (b : Byte) : (s.storeByte a b).pending = s.pending := rfl
@[simp] theorem State.storeByte_lastResult (s : State) (a : Nat) (b : Byte) : (s.storeByte a b).lastResult = s.lastResult := rfl
@[simp] theorem State.storeByte_draws (s : State) (a : Nat) (b : Byte) : (s.storeByte a b).draws = s.draws := rfl
@[simp] theorem State.storeByte_getV (s : State) (a : Nat) (b : Byte) (k : Nibble) : (s.storeByte a b).getV k = s.getV k := rfl

@[simp] theorem State.setResult_i (s : State) (x : Nibble) (r : Byte) : (s.setResult x r).i = s.i := rfl
@[simp] theorem State.setResult_pc (s : State) (x : Nibble) (r : Byte) : (s.setResult x r).pc = s.pc + 2#16 := rfl
@[simp] theorem State.setResult_sp (s : State) (x : Nibble) (r : Byte) : (s.setResult x r).sp = s.sp := rfl
@[simp] theorem State.setResult_stack (s : State) (x : Nibble) (r : Byte) : (s.setResult x r).stack = s.stack := rfl
@[simp] theorem State.setResult_dt (s : State) (x : Nibble) (r : Byte) : (s.setResult x r).dt = s.dt := rfl
@[simp] theorem State.setResult_st (s : State) (x : Nibble) (r : Byte) : (s.setResult x r).st = s.st := rfl
@[simp] theorem State.setResult_keypad (s : State) (x : Nibble) (r : Byte) : (s.setResult x r).keypad = s.keypad := rfl
@[simp] theorem State.setResult_fb (s : State) (x : Nibble) (r : Byte) : (s.setResult x r).fb = s.fb := rfl
@[simp] theorem State.setResult_tone (s : State) (x : Nibble) (r : Byte) : (s.setResult x r).tone = s.tone := rfl
@[simp] theorem State.setResult_elapsedBudget (s : State) (x : Nibble) (r : Byte) : (s.setResult x r).elapsedBudget = s.elapsedBudget := rfl
@[simp] theorem State.setResult_rngState (s : State) (x : Nibble) (r : Byte) : (s.setResult x r).rngState = s.rngState := rfl
@[simp] theorem State.setResult_mem (s : State) (x : Nibble) (r : Byte) : (s.setResult x r).mem = s.mem := rfl
@[simp] theorem State.setResult_phase (s : State) (x : Nibble) (r : Byte) : (s.setResult x r).phase = s.phase := rfl
@[simp] theorem State.setResult_stopped (s : State) (x : Nibble) (r : Byte) : (s.setResult x r).stopped = s.stopped := rfl
@[simp] theorem State.setResult_activity (s : State) (x : Nibble) (r : Byte) : (s.setResult x r).activity = s.activity := rfl
@[simp] theorem State.setResult_pending (s : State) (x : Nibble) (r : Byte) : (s.setResult x r).pending = s.pending := rfl
@[simp] theorem State.setResult_lastResult (s : State) (x : Nibble) (r : Byte) : (s.setResult x r).lastResult = s.lastResult := rfl
@[simp] theorem State.setResult_draws (s : State) (x : Nibble) (r : Byte) : (s.setResult x r).draws = s.draws := rfl

@[simp] theorem State.setResultFlag_i (s : State) (x : Nibble) (r : Byte) (c : Bool) : (s.setResultFlag x r c).i = s.i := rfl
@[simp] theorem State.setResultFlag_pc (s : State) (x : Nibble) (r : Byte) (c : Bool) : (s.setResultFlag x r c).pc = s.pc + 2#16 := rfl
@[simp] theorem State.setResultFlag_sp (s : State) (x : Nibble) (r : Byte) (c : Bool) : (s.setResultFlag x r c).sp = s.sp := rfl
@[simp] theorem State.setResultFlag_stack (s : State) (x : Nibble) (r : Byte) (c : Bool) : (s.setResultFlag x r c).stack = s.stack := rfl
@[simp] theorem State.setResultFlag_dt (s : State) (x : Nibble) (r : Byte) (c : Bool) : (s.setResultFlag x r c).dt = s.dt := rfl
@[simp] theorem State.setResultFlag_st (s : State) (x : Nibble) (r : Byte) (c : Bool) : (s.setResultFlag x r c).st = s.st := rfl
@[simp] theorem State.setResultFlag_keypad (s : State) (x : Nibble) (r : Byte) (c : Bool) : (s.setResultFlag x r c).keypad = s.keypad := rfl
@[simp] theorem State.setResultFlag_fb (s : State) (x : Nibble) (r : Byte) (c : Bool) : (s.setResultFlag x r c).fb = s.fb := rfl
@[simp] theorem State.setResultFlag_tone (s : State) (x : Nibble) (r : Byte) (c : Bool) : (s.setResultFlag x r c).tone = s.tone := rfl
@[simp] theorem State.setResultFlag_elapsedBudget (s : State) (x : Nibble) (r : Byte) (c : Bool) : (s.setResultFlag x r c).elapsedBudget = s.elapsedBudget := rfl
@[simp] theorem State.setResultFlag_rngState (s : State) (x : Nibble) (r : Byte) (c : Bool) : (s.setResultFlag x r c).rngState = s.rngState := rfl
@[simp] theorem State.setResultFlag_mem (s : State) (x : Nibble) (r : Byte) (c : Bool) : (s.setResultFlag x r c).mem = s.mem := rfl
@[simp] theorem State.setResultFlag_phase (s : State) (x : Nibble) (r : Byte) (c : Bool) : (s.setResultFlag x r c).phase = s.phase := rfl
@[simp] theorem State.setResultFlag_stopped (s : State) (x : Nibble) (r : Byte) (c : Bool) : (s.setResultFlag x r c).stopped = s.stopped := rfl
@[simp] theorem State.setResultFlag_activity (s : State) (x : Nibble) (r : Byte) (c : Bool) : (s.setResultFlag x r c).activity = s.activity := rfl
@[simp] theorem State.setResultFlag_pending (s : State) (x : Nibble) (r : Byte) (c : Bool) : (s.setResultFlag x r c).pending = s.pending := rfl
@[simp] theorem State.setResultFlag_lastResult (s : State) (x : Nibble) (r : Byte) (c : Bool) : (s.setResultFlag x r c).lastResult = s.lastResult := rfl
@[simp] theorem State.setResultFlag_draws (s : State) (x : Nibble) (r : Byte) (c : Bool) : (s.setResultFlag x r c).draws = s.draws := rfl

@[simp] theorem State.push_v (s : State) (a : Word) : (s.push a).v = s.v := rfl
@[simp] theorem State.push_i (s : State) (a : Word) : (s.push a).i = s.i := rfl
@[simp] theorem State.push_pc (s : State) (a : Word) : (s.push a).pc = s.pc := rfl
@[simp] theorem State.push_sp (s : State) (a : Word) : (s.push a).sp = s.sp + 1#8 := rfl
@[simp] theorem State.push_stack (s : State) (a : Word) : (s.push a).stack = s.stack.setIfInBounds s.sp.toNat a := rfl
@[simp] theorem State.push_dt (s : State) (a : Word) : (s.push a).dt = s.dt := rfl
@[simp] theorem State.push_st (s : State) (a : Word) : (s.push a).st = s.st := rfl
@[simp] theorem State.push_keypad (s : State) (a : Word) : (s.push a).keypad = s.keypad := rfl
@[simp] theorem State.push_fb (s : State) (a : Word) : (s.push a).fb = s.fb := rfl
@[simp] theorem State.push_tone (s : State) (a : Word) : (s.push a).tone = s.tone := rfl
@[simp] theorem State.push_elapsedBudget (s : State) (a : Word) : (s.push a).elapsedBudget = s.elapsedBudget := rfl
@[simp] theorem State.push_rngState (s : State) (a : Word) : (s.push a).rngState = s.rngState := rfl
@[simp] theorem State.push_mem (s : State) (a : Word) : (s.push a).mem = s.mem := rfl
@[simp] theorem State.push_phase (s : State) (a : Word) : (s.push a).phase = s.phase := rfl
@[simp] theorem State.push_stopped (s : State) (a : Word) : (s.push a).stopped = s.stopped := rfl
@[simp] theorem State.push_activity (s : State) (a : Word) : (s.push a).activity = s.activity := rfl
@[simp] theorem State.push_pending (s : State) (a : Word) : (s.push a).pending = s.pending := rfl
@[simp] theorem State.push_lastResult (s : State) (a : Word) : (s.push a).lastResult = s.lastResult := rfl
@[simp] theorem State.push_draws (s : State) (a : Word) : (s.push a).draws = s.draws := rfl
@[simp] theorem State.push_getV (s : State) (a : Word) (k : Nibble) : (s.push a).getV k = s.getV k := rfl

@[simp] theorem State.popJump_v (s : State) : (s.popJump).v = s.v := rfl
@[simp] theorem State.popJump_i (s : State) : (s.popJump).i = s.i := rfl
@[simp] theorem State.popJump_pc (s : State) : (s.popJump).pc = s.topOfStack := rfl
@[simp] theorem State.popJump_sp (s : State) : (s.popJump).sp = s.poppedSp := rfl
@[simp] theorem State.popJump_stack (s : State) : (s.popJump).stack = s.stack := rfl
@[simp] theorem State.popJump_dt (s : State) : (s.popJump).dt = s.dt := rfl
@[simp] theorem State.popJump_st (s : State) : (s.popJump).st = s.st := rfl
@[simp] theorem State.popJump_keypad (s : State) : (s.popJump).keypad = s.keypad := rfl
@[simp] theorem State.popJump_fb (s : State) : (s.popJump).fb = s.fb := rfl
@[simp] theorem State.popJump_tone (s : State) : (s.popJump).tone = s.tone := rfl
@[simp] theorem State.popJump_elapsedBudget (s : State) : (s.popJump).elapsedBudget = s.elapsedBudget := rfl
@[simp] theorem State.popJump_rngState (s : State) : (s.popJump).rngState = s.rngState := rfl
@[simp] theorem State.popJump_mem (s : State) : (s.popJump).mem = s.mem := rfl
@[simp] theorem State.popJump_phase (s : State) : (s.popJump).phase = s.phase := rfl
@[simp] theorem State.popJump_stopped (s : State) : (s.popJump).stopped = s.stopped := rfl
@[simp] theorem State.popJump_activity (s : State) : (s.popJump).activity = s.activity := rfl
@[simp] theorem State.popJump_pending (s : State) : (s.popJump).pending = s.pending := rfl
@[simp] theorem State.popJump_lastResult (s : State) : (s.popJump).lastResult = s.lastResult := rfl
@[simp] theorem State.popJump_draws (s : State) : (s.popJump).draws = s.draws := rfl
@[simp] theorem State.popJump_getV (s : State) (k : Nibble) : (s.popJump).getV k = s.getV k := rfl

@[simp] theorem State.advanceRng_v (s : State) : (s.advanceRng).v = s.v := rfl
@[simp] theorem State.advanceRng_i (s : State) : (s.advanceRng).i = s.i := rfl
@[simp] theorem State.advanceRng_pc (s : State) : (s.advanceRng).pc = s.pc := rfl
@[simp] theorem State.advanceRng_sp (s : State) : (s.advanceRng).sp = s.sp := rfl
@[simp] theorem State.advanceRng_stack (s : State) : (s.advanceRng).stack = s.stack := rfl
@[simp] theorem State.advanceRng_dt (s : State) : (s.advanceRng).dt = s.dt := rfl
@[simp] theorem State.advanceRng_st (s : State) : (s.advanceRng).st = s.st := rfl
@[simp] theorem State.advanceRng_keypad (s : State) : (s.advanceRng).keypad = s.keypad := rfl
@[simp] theorem State.advanceRng_fb (s : State) : (s.advanceRng).fb = s.fb := rfl
@[simp] theorem State.advanceRng_tone (s : State) : (s.advanceRng).tone = s.tone := rfl
@[simp] theorem State.advanceRng_elapsedBudget (s : State) : (s.advanceRng).elapsedBudget = s.elapsedBudget := rfl
@[simp] theorem State.advanceRng_rngState (s : State) : (s.advanceRng).rngState = (Config.rngNext s.rngState).2 := rfl
@[simp] theorem State.advanceRng_mem (s : State) : (s.advanceRng).mem = s.mem := rfl
@[simp] theorem State.advanceRng_phase (s : State) : (s.advanceRng).phase = s.phase := rfl
@[simp] theorem State.advanceRng_stopped (s : State) : (s.advanceRng).stopped = s.stopped := rfl
@[simp] theorem State.advanceRng_activity (s : State) : (s.advanceRng).activity = s.activity := rfl
@[simp] theorem State.advanceRng_pending (s : State) : (s.advanceRng).pending = s.pending := rfl
@[simp] theorem State.advanceRng_lastResult (s : State) : (s.advanceRng).lastResult = s.lastResult := rfl
@[simp] theorem State.advanceRng_draws (s : State) : (s.advanceRng).draws = s.draws := rfl
@[simp] theorem State.advanceRng_getV (s : State) (k : Nibble) : (s.advanceRng).getV k = s.getV k := rfl

@[simp] theorem State.clearScreen_v (s : State) : (s.clearScreen).v = s.v := rfl
@[simp] theorem State.clearScreen_i (s : State) : (s.clearScreen).i = s.i := rfl
@[simp] theorem State.clearScreen_pc (s : State) : (s.clearScreen).pc = s.pc := rfl
@[simp] theorem State.clearScreen_sp (s : State) : (s.clearScreen).sp = s.sp := rfl
@[simp] theorem State.clearScreen_stack (s : State) : (s.clearScreen).stack = s.stack := rfl
@[simp] theorem State.clearScreen_dt (s : State) : (s.clearScreen).dt = s.dt := rfl
@[simp] theorem State.clearScreen_st (s : State) : (s.clearScreen).st = s.st := rfl
@[simp] theorem State.clearScreen_keypad (s : State) : (s.clearScreen).keypad = s.keypad := rfl
@[simp] theorem State.clearScreen_fb (s : State) : (s.clearScreen).fb = Vector.replicate 256 0#8 := rfl
@[simp] theorem State.clearScreen_tone (s : State) : (s.clearScreen).tone = s.tone := rfl
@[simp] theorem State.clearScreen_elapsedBudget (s : State) : (s.clearScreen).elapsedBudget = s.elapsedBudget := rfl
@[simp] theorem State.clearScreen_rngState (s : State) : (s.clearScreen).rngState = s.rngState := rfl
@[simp] theorem State.clearScreen_mem (s : State) : (s.clearScreen).mem = s.mem := rfl
@[simp] theorem State.clearScreen_phase (s : State) : (s.clearScreen).phase = s.phase := rfl
@[simp] theorem State.clearScreen_stopped (s : State) : (s.clearScreen).stopped = s.stopped := rfl
@[simp] theorem State.clearScreen_activity (s : State) : (s.clearScreen).activity = s.activity := rfl
@[simp] theorem State.clearScreen_pending (s : State) : (s.clearScreen).pending = s.pending := rfl
@[simp] theorem State.clearScreen_lastResult (s : State) : (s.clearScreen).lastResult = s.lastResult := rfl
@[simp] theorem State.clearScreen_draws (s : State) : (s.clearScreen).draws = s.draws := rfl
@[simp] theorem State.clearScreen_getV (s : State) (k : Nibble) : (s.clearScreen).getV k = s.getV k := rfl

@[simp] theorem State.setDrawing_i (s : State) (d : Drawing) : (s.setDrawing d).i = s.i := rfl
@[simp] theorem State.setDrawing_pc (s : State) (d : Drawing) : (s.setDrawing d).pc = s.pc := rfl
@[simp] theorem State.setDrawing_sp (s : State) (d : Drawing) : (s.setDrawing d).sp = s.sp := rfl
@[simp] theorem State.setDrawing_stack (s : State) (d : Drawing) : (s.setDrawing d).stack = s.stack := rfl
@[simp] theorem State.setDrawing_dt (s : State) (d : Drawing) : (s.setDrawing d).dt = s.dt := rfl
@[simp] theorem State.setDrawing_st (s : State) (d : Drawing) : (s.setDrawing d).st = s.st := rfl
@[simp] theorem State.setDrawing_keypad (s : State) (d : Drawing) : (s.setDrawing d).keypad = s.keypad := rfl
@[simp] theorem State.setDrawing_fb (s : State) (d : Drawing) : (s.setDrawing d).fb = d.1 := rfl
@[simp] theorem State.setDrawing_tone (s : State) (d : Drawing) : (s.setDrawing d).tone = s.tone := rfl
@[simp] theorem State.setDrawing_elapsedBudget (s : State) (d : Drawing) : (s.setDrawing d).elapsedBudget = s.elapsedBudget := rfl
@[simp] theorem State.setDrawing_rngState (s : State) (d : Drawing) : (s.setDrawing d).rngState = s.rngState := rfl
@[simp] theorem State.setDrawing_mem (s : State) (d : Drawing) : (s.setDrawing d).mem = s.mem := rfl
@[simp] theorem State.setDrawing_phase (s : State) (d : Drawing) : (s.setDrawing d).phase = s.phase := rfl
@[simp] theorem State.setDrawing_stopped (s : State) (d : Drawing) : (s.setDrawing d).stopped = s.stopped := rfl
@[simp] theorem State.setDrawing_activity (s : State) (d : Drawing) : (s.setDrawing d).activity = s.activity := rfl
@[simp] theorem State.setDrawing_pending (s : State) (d : Drawing) : (s.setDrawing d).pending = s.pending := rfl
@[simp] theorem State.setDrawing_lastResult (s : State) (d : Drawing) : (s.setDrawing d).lastResult = s.lastResult := rfl
@[simp] theorem State.setDrawing_draws (s : State) (d : Drawing) : (s.setDrawing d).draws = s.draws := rfl

@[simp] theorem State.storeBcd_v (s : State) (b : Byte) : (s.storeBcd b).v = s.v := rfl
@[simp] theorem State.storeBcd_i (s : State) (b : Byte) : (s.storeBcd b).i = s.i := rfl
@[simp] theorem State.storeBcd_pc (s : State) (b : Byte) : (s.storeBcd b).pc = s.pc := rfl
@[simp] theorem State.storeBcd_sp (s : State) (b : Byte) : (s.storeBcd b).sp = s.sp := rfl
@[simp] theorem State.storeBcd_stack (s : State) (b : Byte) : (s.storeBcd b).stack = s.stack := rfl
@[simp] theorem State.storeBcd_dt (s : State) (b : Byte) : (s.storeBcd b).dt = s.dt := rfl
@[simp] theorem State.storeBcd_st (s : State) (b : Byte) : (s.storeBcd b).st = s.st := rfl
@[simp] theorem State.storeBcd_keypad (s : State) (b : Byte) : (s.storeBcd b).keypad = s.keypad := rfl
@[simp] theorem State.storeBcd_fb (s : State) (b : Byte) : (s.storeBcd b).fb = s.fb := rfl
@[simp] theorem State.storeBcd_tone (s : State) (b : Byte) : (s.storeBcd b).tone = s.tone := rfl
@[simp] theorem State.storeBcd_elapsedBudget (s : State) (b : Byte) : (s.storeBcd b).elapsedBudget = s.elapsedBudget := rfl
@[simp] theorem State.storeBcd_rngState (s : State) (b : Byte) : (s.storeBcd b).rngState = s.rngState := rfl
@[simp] theorem State.storeBcd_phase (s : State) (b : Byte) : (s.storeBcd b).phase = s.phase := rfl
@[simp] theorem State.storeBcd_stopped (s : State) (b : Byte) : (s.storeBcd b).stopped = s.stopped := rfl
@[simp] theorem State.storeBcd_activity (s : State) (b : Byte) : (s.storeBcd b).activity = s.activity := rfl
@[simp] theorem State.storeBcd_pending (s : State) (b : Byte) : (s.storeBcd b).pending = s.pending := rfl
@[simp] theorem State.storeBcd_lastResult (s : State) (b : Byte) : (s.storeBcd b).lastResult = s.lastResult := rfl
@[simp] theorem State.storeBcd_draws (s : State) (b : Byte) : (s.storeBcd b).draws = s.draws := rfl
@[simp] theorem State.storeBcd_getV (s : State) (b : Byte) (k : Nibble) : (s.storeBcd b).getV k = s.getV k := rfl

@[simp] theorem State.tickDt_v (s : State) : (s.tickDt).v = s.v := rfl
@[simp] theorem State.tickDt_i (s : State) : (s.tickDt).i = s.i := rfl
@[simp] theorem State.tickDt_pc (s : State) : (s.tickDt).pc = s.pc := rfl
@[simp] theorem State.tickDt_sp (s : State) : (s.tickDt).sp = s.sp := rfl
@[simp] theorem State.tickDt_stack (s : State) : (s.tickDt).stack = s.stack := rfl
@[simp] theorem State.tickDt_dt (s : State) : (s.tickDt).dt = if s.dt = 0#8 then s.dt else s.dt - 1#8 := rfl
@[simp] theorem State.tickDt_st (s : State) : (s.tickDt).st = s.st := rfl
@[simp] theorem State.tickDt_keypad (s : State) : (s.tickDt).keypad = s.keypad := rfl
@[simp] theorem State.tickDt_fb (s : State) : (s.tickDt).fb = s.fb := rfl
@[simp] theorem State.tickDt_tone (s : State) : (s.tickDt).tone = s.tone := rfl
@[simp] theorem State.tickDt_elapsedBudget (s : State) : (s.tickDt).elapsedBudget = s.elapsedBudget := rfl
@[simp] theorem State.tickDt_rngState (s : State) : (s.tickDt).rngState = s.rngState := rfl
@[simp] theorem State.tickDt_mem (s : State) : (s.tickDt).mem = s.mem := rfl
@[simp] theorem State.tickDt_phase (s : State) : (s.tickDt).phase = s.phase := rfl
@[simp] theorem State.tickDt_stopped (s : State) : (s.tickDt).stopped = s.stopped := rfl
@[simp] theorem State.tickDt_activity (s : State) : (s.tickDt).activity = s.activity := rfl
@[simp] theorem State.tickDt_pending (s : State) : (s.tickDt).pending = s.pending := rfl
@[simp] theorem State.tickDt_lastResult (s : State) : (s.tickDt).lastResult = s.lastResult := rfl
@[simp] theorem State.tickDt_draws (s : State) : (s.tickDt).draws = s.draws := rfl
@[simp] theorem State.tickDt_getV (s : State) (k : Nibble) : (s.tickDt).getV k = s.getV k := rfl

@[simp] theorem State.tickSt_v (s : State) : (s.tickSt).v = s.v := rfl
@[simp] theorem State.tickSt_i (s : State) : (s.tickSt).i = s.i := rfl
@[simp] theorem State.tickSt_pc (s : State) : (s.tickSt).pc = s.pc := rfl
@[simp] theorem State.tickSt_sp (s : State) : (s.tickSt).sp = s.sp := rfl
@[simp] theorem State.tickSt_stack (s : State) : (s.tickSt).stack = s.stack := rfl
@[simp] theorem State.tickSt_dt (s : State) : (s.tickSt).dt = s.dt := rfl
@[simp] theorem State.tickSt_st (s : State) : (s.tickSt).st = if s.st = 0#8 then s.st else s.st - 1#8 := rfl
@[simp] theorem State.tickSt_keypad (s : State) : (s.tickSt).keypad = s.keypad := rfl
@[simp] theorem State.tickSt_fb (s : State) : (s.tickSt).fb = s.fb := rfl
@[simp] theorem State.tickSt_tone (s : State) : (s.tickSt).tone = (s.st != 0#8) := rfl
@[simp] theorem State.tickSt_elapsedBudget (s : State) : (s.tickSt).elapsedBudget = s.elapsedBudget := rfl
@[simp] theorem State.tickSt_rngState (s : State) : (s.tickSt).rngState = s.rngState := rfl
@[simp] theorem State.tickSt_mem (s : State) : (s.tickSt).mem = s.mem := rfl
@[simp] theorem State.tickSt_phase (s : State) : (s.tickSt).phase = s.phase := rfl
@[simp] theorem State.tickSt_stopped (s : State) : (s.tickSt).stopped = s.stopped := rfl
@[simp] theorem State.tickSt_activity (s : State) : (s.tickSt).activity = s.activity := rfl
@[simp] theorem State.tickSt_pending (s : State) : (s.tickSt).pending = s.pending := rfl
@[simp] theorem State.tickSt_lastResult (s : State) : (s.tickSt).lastResult = s.lastResult := rfl
@[simp] theorem State.tickSt_draws (s : State) : (s.tickSt).draws = s.draws := rfl
@[simp] theorem State.tickSt_getV (s : State) (k : Nibble) : (s.tickSt).getV k = s.getV k := rfl

@[simp] theorem State.frameStart_v (s : State) (m : Word) : (s.frameStart m).v = s.v := rfl
@[simp] theorem State.frameStart_i (s : State) (m : Word) : (s.frameStart m).i = s.i := rfl
@[simp] theorem State.frameStart_pc (s : State) (m : Word) : (s.frameStart m).pc = s.pc := rfl
@[simp] theorem State.frameStart_sp (s : State) (m : Word) : (s.frameStart m).sp = s.sp := rfl
@[simp] theorem State.frameStart_stack (s : State) (m : Word) : (s.frameStart m).stack = s.stack := rfl
@[simp] theorem State.frameStart_dt (s : State) (m : Word) : (s.frameStart m).dt = if s.dt = 0#8 then s.dt else s.dt - 1#8 := rfl
@[simp] theorem State.frameStart_st (s : State) (m : Word) : (s.frameStart m).st = if s.st = 0#8 then s.st else s.st - 1#8 := rfl
@[simp] theorem State.frameStart_keypad (s : State) (m : Word) : (s.frameStart m).keypad = m := rfl
@[simp] theorem State.frameStart_fb (s : State) (m : Word) : (s.frameStart m).fb = s.fb := rfl
@[simp] theorem State.frameStart_tone (s : State) (m : Word) : (s.frameStart m).tone = (s.st != 0#8) := rfl
@[simp] theorem State.frameStart_elapsedBudget (s : State) (m : Word) : (s.frameStart m).elapsedBudget = s.elapsedBudget + frameBudget := rfl
@[simp] theorem State.frameStart_rngState (s : State) (m : Word) : (s.frameStart m).rngState = s.rngState := rfl
@[simp] theorem State.frameStart_mem (s : State) (m : Word) : (s.frameStart m).mem = s.mem := rfl
@[simp] theorem State.frameStart_phase (s : State) (m : Word) : (s.frameStart m).phase = .running := rfl
@[simp] theorem State.frameStart_stopped (s : State) (m : Word) : (s.frameStart m).stopped = s.stopped := rfl
@[simp] theorem State.frameStart_activity (s : State) (m : Word) : (s.frameStart m).activity = .inFrame := rfl
@[simp] theorem State.frameStart_pending (s : State) (m : Word) : (s.frameStart m).pending = s.pending := rfl
@[simp] theorem State.frameStart_lastResult (s : State) (m : Word) : (s.frameStart m).lastResult = s.lastResult := rfl
@[simp] theorem State.frameStart_draws (s : State) (m : Word) : (s.frameStart m).draws = s.draws := rfl
@[simp] theorem State.frameStart_getV (s : State) (m : Word) (k : Nibble) : (s.frameStart m).getV k = s.getV k := rfl

@[simp] theorem State.account_v (s : State) (c : Nat) : (s.account c).v = s.v := rfl
@[simp] theorem State.account_i (s : State) (c : Nat) : (s.account c).i = s.i := rfl
@[simp] theorem State.account_pc (s : State) (c : Nat) : (s.account c).pc = s.pc := rfl
@[simp] theorem State.account_sp (s : State) (c : Nat) : (s.account c).sp = s.sp := rfl
@[simp] theorem State.account_stack (s : State) (c : Nat) : (s.account c).stack = s.stack := rfl
@[simp] theorem State.account_dt (s : State) (c : Nat) : (s.account c).dt = s.dt := rfl
@[simp] theorem State.account_st (s : State) (c : Nat) : (s.account c).st = s.st := rfl
@[simp] theorem State.account_keypad (s : State) (c : Nat) : (s.account c).keypad = s.keypad := rfl
@[simp] theorem State.account_fb (s : State) (c : Nat) : (s.account c).fb = s.fb := rfl
@[simp] theorem State.account_tone (s : State) (c : Nat) : (s.account c).tone = s.tone := rfl
@[simp] theorem State.account_elapsedBudget (s : State) (c : Nat) : (s.account c).elapsedBudget = s.elapsedBudget - (c : Int) := rfl
@[simp] theorem State.account_rngState (s : State) (c : Nat) : (s.account c).rngState = s.rngState := rfl
@[simp] theorem State.account_mem (s : State) (c : Nat) : (s.account c).mem = s.mem := rfl
@[simp] theorem State.account_phase (s : State) (c : Nat) : (s.account c).phase = s.phase := rfl
@[simp] theorem State.account_stopped (s : State) (c : Nat) : (s.account c).stopped = s.stopped := rfl
@[simp] theorem State.account_activity (s : State) (c : Nat) : (s.account c).activity = s.activity := rfl
@[simp] theorem State.account_pending (s : State) (c : Nat) : (s.account c).pending = s.pending := rfl
@[simp] theorem State.account_lastResult (s : State) (c : Nat) : (s.account c).lastResult = s.lastResult := rfl
@[simp] theorem State.account_draws (s : State) (c : Nat) : (s.account c).draws = s.draws := rfl
@[simp] theorem State.account_getV (s : State) (c : Nat) (k : Nibble) : (s.account c).getV k = s.getV k := rfl

@[simp] theorem State.endWith_v (s : State) (a : Answer) : (s.endWith a).v = s.v := rfl
@[simp] theorem State.endWith_i (s : State) (a : Answer) : (s.endWith a).i = s.i := rfl
@[simp] theorem State.endWith_pc (s : State) (a : Answer) : (s.endWith a).pc = s.pc := rfl
@[simp] theorem State.endWith_sp (s : State) (a : Answer) : (s.endWith a).sp = s.sp := rfl
@[simp] theorem State.endWith_stack (s : State) (a : Answer) : (s.endWith a).stack = s.stack := rfl
@[simp] theorem State.endWith_dt (s : State) (a : Answer) : (s.endWith a).dt = s.dt := rfl
@[simp] theorem State.endWith_st (s : State) (a : Answer) : (s.endWith a).st = s.st := rfl
@[simp] theorem State.endWith_keypad (s : State) (a : Answer) : (s.endWith a).keypad = s.keypad := rfl
@[simp] theorem State.endWith_fb (s : State) (a : Answer) : (s.endWith a).fb = s.fb := rfl
@[simp] theorem State.endWith_tone (s : State) (a : Answer) : (s.endWith a).tone = s.tone := rfl
@[simp] theorem State.endWith_elapsedBudget (s : State) (a : Answer) : (s.endWith a).elapsedBudget = s.elapsedBudget := rfl
@[simp] theorem State.endWith_rngState (s : State) (a : Answer) : (s.endWith a).rngState = s.rngState := rfl
@[simp] theorem State.endWith_mem (s : State) (a : Answer) : (s.endWith a).mem = s.mem := rfl
@[simp] theorem State.endWith_phase (s : State) (a : Answer) : (s.endWith a).phase = s.phase := rfl
@[simp] theorem State.endWith_stopped (s : State) (a : Answer) : (s.endWith a).stopped = s.stopped := rfl
@[simp] theorem State.endWith_activity (s : State) (a : Answer) : (s.endWith a).activity = .idle := rfl
@[simp] theorem State.endWith_pending (s : State) (a : Answer) : (s.endWith a).pending = s.pending := rfl
@[simp] theorem State.endWith_lastResult (s : State) (a : Answer) : (s.endWith a).lastResult = some a := rfl
@[simp] theorem State.endWith_draws (s : State) (a : Answer) : (s.endWith a).draws = s.draws := rfl
@[simp] theorem State.endWith_getV (s : State) (a : Answer) (k : Nibble) : (s.endWith a).getV k = s.getV k := rfl

@[simp] theorem State.recordStop_v (s : State) (f : Fault) : (s.recordStop f).v = s.v := rfl
@[simp] theorem State.recordStop_i (s : State) (f : Fault) : (s.recordStop f).i = s.i := rfl
@[simp] theorem State.recordStop_pc (s : State) (f : Fault) : (s.recordStop f).pc = s.pc := rfl
@[simp] theorem State.recordStop_sp (s : State) (f : Fault) : (s.recordStop f).sp = s.sp := rfl
@[simp] theorem State.recordStop_stack (s : State) (f : Fault) : (s.recordStop f).stack = s.stack := rfl
@[simp] theorem State.recordStop_dt (s : State) (f : Fault) : (s.recordStop f).dt = s.dt := rfl
@[simp] theorem State.recordStop_st (s : State) (f : Fault) : (s.recordStop f).st = s.st := rfl
@[simp] theorem State.recordStop_keypad (s : State) (f : Fault) : (s.recordStop f).keypad = s.keypad := rfl
@[simp] theorem State.recordStop_fb (s : State) (f : Fault) : (s.recordStop f).fb = s.fb := rfl
@[simp] theorem State.recordStop_tone (s : State) (f : Fault) : (s.recordStop f).tone = s.tone := rfl
@[simp] theorem State.recordStop_elapsedBudget (s : State) (f : Fault) : (s.recordStop f).elapsedBudget = s.elapsedBudget := rfl
@[simp] theorem State.recordStop_rngState (s : State) (f : Fault) : (s.recordStop f).rngState = s.rngState := rfl
@[simp] theorem State.recordStop_mem (s : State) (f : Fault) : (s.recordStop f).mem = s.mem := rfl
@[simp] theorem State.recordStop_phase (s : State) (f : Fault) : (s.recordStop f).phase = s.phase := rfl
@[simp] theorem State.recordStop_stopped (s : State) (f : Fault) : (s.recordStop f).stopped = some f := rfl
@[simp] theorem State.recordStop_activity (s : State) (f : Fault) : (s.recordStop f).activity = .idle := rfl
@[simp] theorem State.recordStop_pending (s : State) (f : Fault) : (s.recordStop f).pending = s.pending := rfl
@[simp] theorem State.recordStop_lastResult (s : State) (f : Fault) : (s.recordStop f).lastResult = some (.stop f) := rfl
@[simp] theorem State.recordStop_draws (s : State) (f : Fault) : (s.recordStop f).draws = s.draws := rfl
@[simp] theorem State.recordStop_getV (s : State) (f : Fault) (k : Nibble) : (s.recordStop f).getV k = s.getV k := rfl

@[simp] theorem State.loadRom_v (s : State) (bs : List Byte) : (s.loadRom bs).v = s.v := rfl
@[simp] theorem State.loadRom_i (s : State) (bs : List Byte) : (s.loadRom bs).i = s.i := rfl
@[simp] theorem State.loadRom_pc (s : State) (bs : List Byte) : (s.loadRom bs).pc = s.pc := rfl
@[simp] theorem State.loadRom_sp (s : State) (bs : List Byte) : (s.loadRom bs).sp = s.sp := rfl
@[simp] theorem State.loadRom_stack (s : State) (bs : List Byte) : (s.loadRom bs).stack = s.stack := rfl
@[simp] theorem State.loadRom_dt (s : State) (bs : List Byte) : (s.loadRom bs).dt = s.dt := rfl
@[simp] theorem State.loadRom_st (s : State) (bs : List Byte) : (s.loadRom bs).st = s.st := rfl
@[simp] theorem State.loadRom_keypad (s : State) (bs : List Byte) : (s.loadRom bs).keypad = s.keypad := rfl
@[simp] theorem State.loadRom_fb (s : State) (bs : List Byte) : (s.loadRom bs).fb = s.fb := rfl
@[simp] theorem State.loadRom_tone (s : State) (bs : List Byte) : (s.loadRom bs).tone = s.tone := rfl
@[simp] theorem State.loadRom_elapsedBudget (s : State) (bs : List Byte) : (s.loadRom bs).elapsedBudget = s.elapsedBudget := rfl
@[simp] theorem State.loadRom_rngState (s : State) (bs : List Byte) : (s.loadRom bs).rngState = s.rngState := rfl
@[simp] theorem State.loadRom_mem (s : State) (bs : List Byte) : (s.loadRom bs).mem = s.mem.writeBytes programBase bs := rfl
@[simp] theorem State.loadRom_phase (s : State) (bs : List Byte) : (s.loadRom bs).phase = .loaded := rfl
@[simp] theorem State.loadRom_stopped (s : State) (bs : List Byte) : (s.loadRom bs).stopped = s.stopped := rfl
@[simp] theorem State.loadRom_activity (s : State) (bs : List Byte) : (s.loadRom bs).activity = s.activity := rfl
@[simp] theorem State.loadRom_pending (s : State) (bs : List Byte) : (s.loadRom bs).pending = s.pending := rfl
@[simp] theorem State.loadRom_lastResult (s : State) (bs : List Byte) : (s.loadRom bs).lastResult = s.lastResult := rfl
@[simp] theorem State.loadRom_draws (s : State) (bs : List Byte) : (s.loadRom bs).draws = s.draws := rfl
@[simp] theorem State.loadRom_getV (s : State) (bs : List Byte) (k : Nibble) : (s.loadRom bs).getV k = s.getV k := rfl

end Sys2Proof.Machine
end

