-- ==== Sys2Proof/Laws/Ops.lean ====
section
/-! SUPPORT. Laws/Ops.lean: for each shared operation of the meanings, one lemma that says what it does. -/

namespace Sys2Proof.Machine

/-- A register read after a register write. -/
@[simp] theorem State.getV_setV (s : State) (x k : Nibble) (b : Byte) :
    (s.setV x b).getV k = if x = k then b else s.getV k := by
  simp only [State.getV, State.setV, Vector.getElem_set, BitVec.toNat_inj]

@[simp] theorem State.getV_setResult (s : State) (x k : Nibble) (r : Byte) :
    (s.setResult x r).getV k = if x = k then r else s.getV k := State.getV_setV s x k r

/-- The flag is written last (spec/43_alu.md R95). -/
@[simp] theorem State.getV_setResultFlag (s : State) (x k : Nibble) (r : Byte) (c : Bool) :
    (s.setResultFlag x r c).getV k = if vf = k then flagByte c else if x = k then r else s.getV k := by
  have h : (s.setResultFlag x r c).getV k = ((s.setV x r).setV vf (flagByte c)).getV k := rfl
  rw [h, State.getV_setV, State.getV_setV]

@[simp] theorem State.getV_setDrawing (s : State) (d : Drawing) (k : Nibble) :
    (s.setDrawing d).getV k = if vf = k then flagByte d.2 else s.getV k :=
  State.getV_setV { s with fb := d.1 } vf k (flagByte d.2)

/-- Two register files with the same sixteen reads are equal. -/
theorem State.v_eq_of_getV (s t : State) (h : ∀ k, s.getV k = t.getV k) : s.v = t.v := by
  apply Vector.ext
  intro k hk
  have := h (BitVec.ofNat 4 k)
  simpa [State.getV, BitVec.toNat_ofNat, Nat.mod_eq_of_lt hk] using this

/-- `stopOr` goes on exactly where there is no stop. -/
theorem stopOr_next (c : Option Fault) (t u : State) : stopOr c t = .next u ↔ c = none ∧ t = u := by
  cases c <;> simp [stopOr]

/-- `stopOr` ends in the stop it is given. -/
theorem stopOr_fault (c : Option Fault) (t : State) (f : Fault) : stopOr c t = .fault f ↔ c = some f := by
  cases c <;> simp [stopOr]

theorem stopOr_not_refused (c : Option Fault) (t : State) (r : Refusal) : stopOr c t ≠ .refused r := by
  cases c <;> simp [stopOr]

/-- Where a call stops (spec/41_flow.md R86). -/
theorem State.pushStop_eq_none (s : State) : s.pushStop = none ↔ s.sp.toNat < stackDepth := by
  unfold State.pushStop
  split
  · next h => simpa using h
  · next h => simpa using h

/-- Where a return stops (spec/41_flow.md R84). -/
theorem State.popStop_eq_none (s : State) :
    s.popStop = none ↔ 0 < s.sp.toNat ∧ s.sp.toNat ≤ stackDepth := by
  unfold State.popStop
  have h0 : s.sp = 0#8 ↔ s.sp.toNat = 0 := by rw [← BitVec.toNat_inj]; rfl
  split
  · next h => simp [h0.1 h]
  · next h =>
    have hpos : 0 < s.sp.toNat := Nat.pos_of_ne_zero fun e => h (h0.2 e)
    split
    · next h1 =>
      simp only [stackDepth_eq] at h1 ⊢
      simp
      omega
    · next h1 =>
      simp only [stackDepth_eq] at h1 ⊢
      simp
      omega

/-- `SP - 1`, as a number. -/
theorem State.poppedSp_toNat (s : State) (h : 0 < s.sp.toNat) : s.poppedSp.toNat = s.sp.toNat - 1 := by
  have := s.sp.isLt
  simp only [State.poppedSp, BitVec.toNat_sub, BitVec.toNat_ofNat]
  omega

/-- The entry a return pops. -/
theorem State.topOfStack_eq (s : State) (h : 0 < s.sp.toNat) (h' : s.sp.toNat ≤ 16) :
    s.topOfStack = s.stack[s.sp.toNat - 1]'(by omega) := by
  have hk : s.sp.toNat - 1 < 16 := by omega
  simp only [State.topOfStack, State.poppedSp_toNat s h]
  rw [Vector.getElem?_eq_getElem hk]
  rfl

/-- A block store changes memory only. -/
theorem State.storeRegs_eq (s : State) (n : Nat) : s.storeRegs n = { s with mem := (s.storeRegs n).mem } := by
  have h : ∃ m, s.storeRegs n = { s with mem := m } := by
    induction n with
    | zero => exact ⟨s.mem, rfl⟩
    | succ n ih =>
      obtain ⟨m, hm⟩ := ih
      exact ⟨_, (congrArg (fun t : State => t.storeByte (t.indexAddr n) (t.getV (BitVec.ofNat 4 n))) hm).trans rfl⟩
  obtain ⟨m, hm⟩ := h
  rw [hm]

@[simp] theorem State.storeRegs_getV (s : State) (n : Nat) (k : Nibble) : (s.storeRegs n).getV k = s.getV k := by
  rw [State.storeRegs_eq]; rfl

@[simp] theorem State.storeRegs_indexAddr (s : State) (n k : Nat) :
    (s.storeRegs n).indexAddr k = s.indexAddr k := by
  rw [State.storeRegs_eq]; rfl

/-- One more byte of a block store. -/
theorem State.storeRegs_mem_succ (s : State) (n : Nat) :
    (s.storeRegs (n + 1)).mem = (s.storeRegs n).mem.write (s.indexAddr n) (s.getV (BitVec.ofNat 4 n)) := by
  show ((s.storeRegs n).storeByte _ _).mem = _
  simp

/-- A block load changes the `V` registers only. -/
theorem State.loadRegs_eq (s : State) (n : Nat) : s.loadRegs n = { s with v := (s.loadRegs n).v } := by
  have h : ∃ v, s.loadRegs n = { s with v := v } := by
    induction n with
    | zero => exact ⟨s.v, rfl⟩
    | succ n ih =>
      obtain ⟨v, hv⟩ := ih
      exact ⟨_, (congrArg (fun t : State => t.setV (BitVec.ofNat 4 n) (t.mem.read (t.indexAddr n))) hv).trans rfl⟩
  obtain ⟨v, hv⟩ := h
  rw [hv]

/-- One more register of a block load. -/
theorem State.loadRegs_getV_succ (s : State) (n : Nat) (k : Nibble) :
    (s.loadRegs (n + 1)).getV k =
      if BitVec.ofNat 4 n = k then s.mem.read (s.indexAddr n) else (s.loadRegs n).getV k := by
  have hm : (s.loadRegs n).mem = s.mem := by rw [State.loadRegs_eq]
  have hi : (s.loadRegs n).indexAddr n = s.indexAddr n := by rw [State.loadRegs_eq]; rfl
  show ((s.loadRegs n).setV _ _).getV k = _
  rw [State.getV_setV, hm, hi]

/-- A key test changes the count of draws only, and only for a value above 15. -/
theorem State.afterKeyTest_eq (s : State) (k : Byte) :
    s.afterKeyTest k = { s with draws := if isFreeKey k then s.draws + 1 else s.draws } := by
  unfold State.afterKeyTest
  split <;> rfl

/-- The three bytes of `Fx33`. -/
theorem State.storeBcd_mem (s : State) (b : Byte) :
    (s.storeBcd b).mem = ((s.mem.write (s.indexAddr 0) (bcdHundreds b)).write (s.indexAddr 1) (bcdTens b)).write
      (s.indexAddr 2) (bcdOnes b) := rfl

/-- Flipping one pixel changes that pixel and no other (spec/10_state.md R26). -/
theorem getPixel_flipPixel (fb : Framebuffer) (px qx : Fin 64) (py qy : Fin 32) :
    getPixel (flipPixel fb px py) qx qy =
      if px = qx ∧ py = qy then !getPixel fb px py else getPixel fb qx qy := by
  have hp := px.isLt
  have hq := qx.isLt
  simp only [getPixel, flipPixel, Vector.getElem_set]
  by_cases hb : (pixelByte px py).val = (pixelByte qx qy).val
  · have hb' : pixelByte px py = pixelByte qx qy := Fin.ext hb
    rw [if_pos hb, BitVec.getLsbD_xor, BitVec.getLsbD_shiftLeft]
    simp only [pixelByte] at hb
    have hbit : pixelBit qx < 8 := by simp only [pixelBit]; omega
    by_cases hx : px = qx
    · have hy : py = qy := Fin.ext (by subst hx; omega)
      subst hx; subst hy
      rw [if_pos ⟨rfl, rfl⟩]
      simp [hbit]
    · have hne : pixelBit px ≠ pixelBit qx := by
        simp only [pixelBit]
        have : px.val ≠ qx.val := fun h => hx (Fin.ext h)
        omega
      rw [if_neg (fun h => hx h.1)]
      by_cases hlt : pixelBit qx < pixelBit px
      · simp [hlt, hb']
      · have : ∃ d, pixelBit qx - pixelBit px = d + 1 := ⟨pixelBit qx - pixelBit px - 1, by omega⟩
        obtain ⟨d, hd⟩ := this
        simp [hd, hb']
  · rw [if_neg hb, if_neg]
    rintro ⟨rfl, rfl⟩
    exact hb rfl

end Sys2Proof.Machine
end

