-- ==== Sys2Proof/Laws/PerInstr.lean ====
section
/-! SUPPORT. Laws/PerInstr.lean: statements about every instruction as syntax, one lemma per constructor. -/

/-- The word of an instruction matches its row of spec/30_encoding.md R57: `W & mask = match`. -/
def Sys2Proof.Laws.TableRow.Statement (i : Sys2Proof.Instr) : Prop :=
  Sys2Proof.encode i &&& (Sys2Proof.tableRow i).1 = (Sys2Proof.tableRow i).2

namespace Sys2Proof.Laws.TableRow

/-- A word with an address field matches the row that fixes its opcode nibble. -/
theorem formatNnn_and (op : Nibble) (nnn : Imm12) : formatNnn op nnn &&& 0xF000#16 = formatNnn op 0x000#12 := by
  apply BitVec.eq_of_getLsbD_eq
  intro j hj
  simp only [BitVec.getLsbD_and, formatNnn_bit]
  interval_cases j <;> simp

/-- A word with a register and a byte matches the row that fixes its opcode nibble. -/
theorem formatXnn_and (op x : Nibble) (nn : Byte) : formatXnn op x nn &&& 0xF000#16 = formatNnn op 0x000#12 := by
  apply BitVec.eq_of_getLsbD_eq
  intro j hj
  simp only [BitVec.getLsbD_and, formatXnn_bit, formatNnn_bit]
  interval_cases j <;> simp

/-- A word with a register and a fixed byte matches the row that fixes both. -/
theorem formatXnn_andFixed (op x : Nibble) (nn : Byte) :
    formatXnn op x nn &&& 0xF0FF#16 = formatXnn op 0x0#4 nn := by
  apply BitVec.eq_of_getLsbD_eq
  intro j hj
  simp only [BitVec.getLsbD_and, formatXnn_bit]
  interval_cases j <;> simp

/-- A word with two registers matches the row that fixes its first and last nibbles. -/
theorem formatXyn_andFixed (op x y n : Nibble) :
    formatXyn op x y n &&& 0xF00F#16 = formatXyn op 0x0#4 0x0#4 n := by
  apply BitVec.eq_of_getLsbD_eq
  intro j hj
  simp only [BitVec.getLsbD_and, formatXyn_bit]
  interval_cases j <;> simp

/-- A word with two registers and a height matches the row that fixes its opcode nibble. -/
theorem formatXyn_and (op x y n : Nibble) : formatXyn op x y n &&& 0xF000#16 = formatNnn op 0x000#12 := by
  apply BitVec.eq_of_getLsbD_eq
  intro j hj
  simp only [BitVec.getLsbD_and, formatXyn_bit, formatNnn_bit]
  interval_cases j <;> simp

theorem cls : Statement .cls := rfl
theorem ret : Statement .ret := rfl
theorem sys (nnn : Imm12) : Statement (.sys nnn) := formatNnn_and 0x0#4 nnn
theorem jp (nnn : Imm12) : Statement (.jp nnn) := formatNnn_and 0x1#4 nnn
theorem call (nnn : Imm12) : Statement (.call nnn) := formatNnn_and 0x2#4 nnn
theorem seImm (x : Nibble) (nn : Byte) : Statement (.seImm x nn) := formatXnn_and 0x3#4 x nn
theorem sneImm (x : Nibble) (nn : Byte) : Statement (.sneImm x nn) := formatXnn_and 0x4#4 x nn
theorem seReg (x y : Nibble) : Statement (.seReg x y) := formatXyn_andFixed 0x5#4 x y 0x0#4
theorem ldImm (x : Nibble) (nn : Byte) : Statement (.ldImm x nn) := formatXnn_and 0x6#4 x nn
theorem addImm (x : Nibble) (nn : Byte) : Statement (.addImm x nn) := formatXnn_and 0x7#4 x nn
theorem ldReg (x y : Nibble) : Statement (.ldReg x y) := formatXyn_andFixed 0x8#4 x y 0x0#4
theorem orReg (x y : Nibble) : Statement (.orReg x y) := formatXyn_andFixed 0x8#4 x y 0x1#4
theorem andReg (x y : Nibble) : Statement (.andReg x y) := formatXyn_andFixed 0x8#4 x y 0x2#4
theorem xorReg (x y : Nibble) : Statement (.xorReg x y) := formatXyn_andFixed 0x8#4 x y 0x3#4
theorem addReg (x y : Nibble) : Statement (.addReg x y) := formatXyn_andFixed 0x8#4 x y 0x4#4
theorem sub (x y : Nibble) : Statement (.sub x y) := formatXyn_andFixed 0x8#4 x y 0x5#4
theorem shr (x y : Nibble) : Statement (.shr x y) := formatXyn_andFixed 0x8#4 x y 0x6#4
theorem subn (x y : Nibble) : Statement (.subn x y) := formatXyn_andFixed 0x8#4 x y 0x7#4
theorem shl (x y : Nibble) : Statement (.shl x y) := formatXyn_andFixed 0x8#4 x y 0xE#4
theorem sneReg (x y : Nibble) : Statement (.sneReg x y) := formatXyn_andFixed 0x9#4 x y 0x0#4
theorem ldI (nnn : Imm12) : Statement (.ldI nnn) := formatNnn_and 0xA#4 nnn
theorem jpV0 (nnn : Imm12) : Statement (.jpV0 nnn) := formatNnn_and 0xB#4 nnn
theorem rnd (x : Nibble) (nn : Byte) : Statement (.rnd x nn) := formatXnn_and 0xC#4 x nn
theorem drw (x y n : Nibble) : Statement (.drw x y n) := formatXyn_and 0xD#4 x y n
theorem skp (x : Nibble) : Statement (.skp x) := formatXnn_andFixed 0xE#4 x 0x9E#8
theorem sknp (x : Nibble) : Statement (.sknp x) := formatXnn_andFixed 0xE#4 x 0xA1#8
theorem ldVxDt (x : Nibble) : Statement (.ldVxDt x) := formatXnn_andFixed 0xF#4 x 0x07#8
theorem ldVxK (x : Nibble) : Statement (.ldVxK x) := formatXnn_andFixed 0xF#4 x 0x0A#8
theorem ldDtVx (x : Nibble) : Statement (.ldDtVx x) := formatXnn_andFixed 0xF#4 x 0x15#8
theorem ldStVx (x : Nibble) : Statement (.ldStVx x) := formatXnn_andFixed 0xF#4 x 0x18#8
theorem addIVx (x : Nibble) : Statement (.addIVx x) := formatXnn_andFixed 0xF#4 x 0x1E#8
theorem ldFVx (x : Nibble) : Statement (.ldFVx x) := formatXnn_andFixed 0xF#4 x 0x29#8
theorem ldBVx (x : Nibble) : Statement (.ldBVx x) := formatXnn_andFixed 0xF#4 x 0x33#8
theorem ldMemVx (x : Nibble) : Statement (.ldMemVx x) := formatXnn_andFixed 0xF#4 x 0x55#8
theorem ldVxMem (x : Nibble) : Statement (.ldVxMem x) := formatXnn_andFixed 0xF#4 x 0x65#8

end Sys2Proof.Laws.TableRow
end

