-- ==== Sys2Proof/Laws/Step.lean ====
section
/-! SUPPORT. Laws/Step.lean: what holds of every handler and cost, the block store in memory, the step by activity, and
runs of the core one step at a time. -/

namespace Sys2Proof.Machine

/-- Every instruction has a meaning. -/
theorem exec_not_refused (i : Instr) (s : State) (r : Refusal) : exec i s ≠ .refused r := by
  cases i <;> simp [exec, execCls, execRet, execSys, execJp, execCall, execJpV0, execSeImm, execSneImm, execSeReg,
    execSneReg, execLdImm, execAddImm, execLdReg, execOrReg, execAndReg, execXorReg, execAddReg, execSub, execShr,
    execSubn, execShl, execLdI, execRnd, execDrw, execSkp, execSknp, execLdVxDt, execLdVxK, execLdDtVx, execLdStVx,
    execAddIVx, execLdFVx, execLdBVx, execLdMemVx, execLdVxMem, stopOr_not_refused]

/-- Every cost is at least 1 (spec/40_frame_cycle.md R80). -/
theorem cost_pos (i : Instr) : 1 ≤ cost i := by
  cases i <;> simp [cost, cost8xy0, cost8xy4]

/-- No cost exceeds `MAXCOST` (spec/10_state.md R29). -/
theorem cost_le_maxCost (i : Instr) : cost i ≤ maxCost := by
  cases i <;> simp [cost, maxCost]

/-- A block store inside the 4096 bytes keeps memory in canonical form. -/
theorem State.storeRegs_wf (s : State) (n : Nat) (h : s.indexAddr 0 + n ≤ memSize) (hw : s.mem.wf = true) :
    (s.storeRegs n).mem.wf = true := by
  induction n with
  | zero => exact hw
  | succ n ih =>
    rw [State.storeRegs_mem_succ]
    exact Memory.wf_write _ _ _ (by simp [State.indexAddr] at *; omega) (ih (by omega))

/-- A block store writes nothing outside its `n` bytes. -/
theorem State.storeRegs_find_other (s : State) (n a : Nat) (h : a < s.indexAddr 0 ∨ s.indexAddr n ≤ a) :
    (s.storeRegs n).mem.find a = s.mem.find a := by
  induction n with
  | zero => rfl
  | succ n ih =>
    simp only [State.indexAddr] at *
    rw [State.storeRegs_mem_succ, Memory.find_write, if_neg (by simp only [State.indexAddr]; omega), ih (by omega)]

/-- Fetch and decode fail only in the two ways of spec/60_exceptions.md R128. -/
theorem State.fetchDecode_error (s : State) (e : CoreError) (h : s.fetchDecode = .error e) :
    (∃ w0 w1, e = .invalidOp w0 w1) ∨ ∃ pc, e = .pcOutOfBounds pc := by
  unfold State.fetchDecode State.decodeAt at h
  split at h
  · cases h; exact .inr ⟨_, rfl⟩
  · split at h <;> cases h
    exact .inl ⟨_, _, rfl⟩

/-- Fetch and decode look at `PC` and memory only. -/
theorem State.fetchDecode_congr (s t : State) (hpc : t.pc = s.pc) (hm : t.mem = s.mem) :
    t.fetchDecode = s.fetchDecode := by
  unfold State.fetchDecode State.decodeAt
  rw [hpc, hm]

theorem step_inFrame (s : State) (h : s.activity = .inFrame) : step s = frameStep s := by
  unfold step; rw [h]

theorem step_idle (s : State) (h : s.activity = .idle) : step s = hostStep s := by
  unfold step; rw [h]

/-- No steps. -/
theorem core_run_zero (s : State) : Host.Core.run Sys2Proof.core 0 s = .next s := rfl

/-- One step that goes on, then `k` more. -/
theorem core_run_succ (k : Nat) (s t : State) (h : step s = .next t) :
    Host.Core.run Sys2Proof.core (k + 1) s = Host.Core.run Sys2Proof.core k t := by
  have e : Sys2Proof.core.step s = step s := rfl
  simp only [Host.Core.run, e, h]

end Sys2Proof.Machine
end

