-- ==== Sys2Proof/Tests/Slice0.lean ====
section
/-! SUPPORT. Tests/Slice0.lean: small tests with expected results from spec/30_encoding.md and spec/95_test_vectors.md
(the vector's id stands in each comment), and for every obligation with hypotheses a witness that meets them. -/

namespace Sys2Proof.Tests.Slice0

open Sys2Proof Sys2Proof.Machine

/-- A running machine inside a frame, a full frame budget left. -/
def base : State :=
  { State.create 0#64 with phase := .running, activity := .inFrame, elapsedBudget := 16666 }

/-- `base` between frames, with a call to `run_frame` waiting. -/
def waiting : State := { base with activity := .idle, elapsedBudget := 0, pending := [.runFrame 0x0001#16] }

/-- `base` before a load, with an image waiting. -/
def unloaded (bytes : List Byte) : State := { State.create 0#64 with pending := [.loadProgram bytes] }

/-- The state one step of the machine leaves, with the word at `PC`. -/
def after (word : Nat) (s : State) : Option State :=
  match step (s.withFetchWord 16 word) with
  | .next t => some t
  | _ => none

/-- What one step leaves of a field. -/
def get {α : Type} (field : State → α) (word : Nat) (s : State) : Option α := (after word s).map field

/-- The cost one step charges. -/
def charged (word : Nat) (s : State) : Option Int := get (fun t => 16666 - t.elapsedBudget) word s

/-- `base` with two registers set. -/
def regs (x : Nibble) (a : Byte) (y : Nibble) (b : Byte) : State := (base.setV x a).setV y b

/-- `base` with `I` at a sprite or a block of bytes. -/
def bytesAt (a : Nat) (bs : List Byte) (s : State) : State :=
  { s with i := BitVec.ofNat 16 a, mem := s.mem.writeBytes a bs }

/-- The state `exec` leaves, if it is a next state. -/
def execNext (i : Instr) (s : State) : Option State :=
  match exec i s with
  | .next t => some t
  | _ => none

/-- The stop `exec` ends in, if any. -/
def execStop (i : Instr) (s : State) : Option Fault :=
  match exec i s with
  | .fault f => some f
  | _ => none

theorem execNext_some (i : Instr) (s : State) (h : (execNext i s).isSome = true) : ∃ t, exec i s = .next t := by
  unfold execNext at h
  split at h
  · next t e => exact ⟨t, e⟩
  · simp at h

-- Well-formedness (R56).

theorem test_sys_00E0_illFormed : (Instr.sys 0x0E0#12).wellFormed = false := by decide

theorem test_sys_00EE_illFormed : (Instr.sys 0x0EE#12).wellFormed = false := by decide

theorem test_sys_00E1_wellFormed : (Instr.sys 0x0E1#12).wellFormed = true := by decide


-- Decoding: each word written out from the patterns of R57, one for every constructor.

theorem test_decode_flow :
    decodeTableWord 16 0x00E0 = some (.cls) ∧
    decodeTableWord 16 0x00EE = some (.ret) ∧
    decodeTableWord 16 0x0123 = some (.sys 0x123#12) ∧
    decodeTableWord 16 0x1234 = some (.jp 0x234#12) ∧
    decodeTableWord 16 0x2ABC = some (.call 0xABC#12) ∧
    decodeTableWord 16 0xB5F0 = some (.jpV0 0x5F0#12) := by
  decide

theorem test_decode_skip :
    decodeTableWord 16 0x3342 = some (.seImm 0x3#4 0x42#8) ∧
    decodeTableWord 16 0x4A51 = some (.sneImm 0xA#4 0x51#8) ∧
    decodeTableWord 16 0x5120 = some (.seReg 0x1#4 0x2#4) ∧
    decodeTableWord 16 0x9CD0 = some (.sneReg 0xC#4 0xD#4) := by
  decide

theorem test_decode_immediate :
    decodeTableWord 16 0x6342 = some (.ldImm 0x3#4 0x42#8) ∧
    decodeTableWord 16 0x70FF = some (.addImm 0x0#4 0xFF#8) ∧
    decodeTableWord 16 0xC30F = some (.rnd 0x3#4 0x0F#8) := by
  decide

theorem test_decode_alu :
    decodeTableWord 16 0x8120 = some (.ldReg 0x1#4 0x2#4) ∧
    decodeTableWord 16 0x8121 = some (.orReg 0x1#4 0x2#4) ∧
    decodeTableWord 16 0x8122 = some (.andReg 0x1#4 0x2#4) ∧
    decodeTableWord 16 0x8123 = some (.xorReg 0x1#4 0x2#4) ∧
    decodeTableWord 16 0x8124 = some (.addReg 0x1#4 0x2#4) ∧
    decodeTableWord 16 0x8125 = some (.sub 0x1#4 0x2#4) ∧
    decodeTableWord 16 0x8126 = some (.shr 0x1#4 0x2#4) ∧
    decodeTableWord 16 0x8127 = some (.subn 0x1#4 0x2#4) ∧
    decodeTableWord 16 0x812E = some (.shl 0x1#4 0x2#4) := by
  decide

theorem test_decode_index :
    decodeTableWord 16 0xA123 = some (.ldI 0x123#12) ∧
    decodeTableWord 16 0xF11E = some (.addIVx 0x1#4) ∧
    decodeTableWord 16 0xF429 = some (.ldFVx 0x4#4) ∧
    decodeTableWord 16 0xF133 = some (.ldBVx 0x1#4) ∧
    decodeTableWord 16 0xF255 = some (.ldMemVx 0x2#4) ∧
    decodeTableWord 16 0xF165 = some (.ldVxMem 0x1#4) := by
  decide

theorem test_decode_display :
    decodeTableWord 16 0xD013 = some (.drw 0x0#4 0x1#4 0x3#4) ∧
    decodeTableWord 16 0xD000 = some (.drw 0x0#4 0x0#4 0x0#4) := by
  decide

theorem test_decode_timersKeys :
    decodeTableWord 16 0xE19E = some (.skp 0x1#4) ∧
    decodeTableWord 16 0xE3A1 = some (.sknp 0x3#4) ∧
    decodeTableWord 16 0xF107 = some (.ldVxDt 0x1#4) ∧
    decodeTableWord 16 0xF30A = some (.ldVxK 0x3#4) ∧
    decodeTableWord 16 0xF115 = some (.ldDtVx 0x1#4) ∧
    decodeTableWord 16 0xF118 = some (.ldStVx 0x1#4) := by
  decide

/-- Words spec/95_test_vectors.md section 2.1 gives as Invalid. -/
theorem test_decode_invalid :
    decodeWord 0x5121#16 = .invalid 0x51#8 0x21#8 ∧
    decodeWord 0x912F#16 = .invalid 0x91#8 0x2F#8 ∧
    decodeWord 0x8008#16 = .invalid 0x80#8 0x08#8 ∧
    decodeWord 0x800F#16 = .invalid 0x80#8 0x0F#8 ∧
    decodeWord 0xE09F#16 = .invalid 0xE0#8 0x9F#8 ∧
    decodeWord 0xF000#16 = .invalid 0xF0#8 0x00#8 ∧
    decodeWord 0xF075#16 = .invalid 0xF0#8 0x75#8 ∧
    decodeWord 0xF0FF#16 = .invalid 0xF0#8 0xFF#8 := by
  decide

theorem test_encode_drw : encode (.drw 0x0#4 0x1#4 0x3#4) = 0xD013#16 := by decide

theorem test_encode_shl : encode (.shl 0x1#4 0x2#4) = 0x812E#16 := by decide

-- One instruction each, run by `step` from memory.

/-- S2, G14. -/
theorem test_cls_clears :
    get (fun t => t.fb[7]) 0x00E0 ({ base with fb := Vector.replicate 256 0xFF#8 }) = some 0#8 ∧
    get State.pc 0x00E0 (base) = some 0x202#16 ∧
    charged 0x00E0 (base) = some 109 := by
  decide

/-- F3. -/
theorem test_ret_pops :
    get State.pc 0x00EE ({ base with pc := 0x300#16, sp := 1#8, stack := base.stack.set 0 0x202#16 }) = some 0x202#16 ∧
    get State.sp 0x00EE ({ base with pc := 0x300#16, sp := 1#8, stack := base.stack.set 0 0x202#16 }) = some 0#8 ∧
    get (fun t => t.stack[0]) 0x00EE ({ base with pc := 0x300#16, sp := 1#8, stack := base.stack.set 0 0x202#16 }) = some 0x202#16 ∧
    charged 0x00EE ({ base with pc := 0x300#16, sp := 1#8, stack := base.stack.set 0 0x202#16 }) = some 105 := by
  decide

/-- F4. -/
theorem test_ret_underflow_stops :
    get State.stopped 0x00EE (base) = some (some (.stackUnderflow 0x200#16)) ∧
    get State.pc 0x00EE (base) = some 0x200#16 ∧
    charged 0x00EE (base) = some 0 := by
  decide

/-- F11. -/
theorem test_sys_advances :
    get State.pc 0x0123 (base) = some 0x202#16 ∧
    charged 0x0123 (base) = some 100 := by
  decide

/-- F1. -/
theorem test_jp_goes :
    get State.pc 0x1234 (base) = some 0x234#16 ∧
    charged 0x1234 (base) = some 105 := by
  decide

/-- F2. -/
theorem test_call_pushes :
    get State.pc 0x2300 (base) = some 0x300#16 ∧
    get State.sp 0x2300 (base) = some 1#8 ∧
    get (fun t => t.stack[0]) 0x2300 (base) = some 0x202#16 ∧
    charged 0x2300 (base) = some 105 := by
  decide

/-- F5. -/
theorem test_call_overflow_stops :
    get State.stopped 0x2400 ({ base with sp := 16#8 }) = some (some (.stackOverflow 0x200#16)) ∧
    get State.sp 0x2400 ({ base with sp := 16#8 }) = some 16#8 := by
  decide

/-- F10: the register is V0, not V5. -/
theorem test_jpV0_uses_v0 :
    get State.pc 0xB5F0 (base.setV 0x5#4 0x10#8) = some 0x5F0#16 ∧
    charged 0xB5F0 (base) = some 105 := by
  decide

/-- The highest target of R87. -/
theorem test_jpV0_top :
    get State.pc 0xBFFF (base.setV 0x0#4 0xFF#8) = some 0x10FE#16 := by
  decide

/-- K1, K2. -/
theorem test_seImm :
    get State.pc 0x3342 (base.setV 0x3#4 0x42#8) = some 0x204#16 ∧
    get State.pc 0x3342 (base.setV 0x3#4 0x41#8) = some 0x202#16 ∧
    charged 0x3342 (base) = some 61 := by
  decide

/-- K3, K4. -/
theorem test_sneImm :
    get State.pc 0x4342 (base.setV 0x3#4 0x42#8) = some 0x202#16 ∧
    get State.pc 0x4342 (base) = some 0x204#16 ∧
    charged 0x4342 (base) = some 61 := by
  decide

/-- K5, K6. -/
theorem test_seReg :
    get State.pc 0x5120 (regs 1#4 7#8 2#4 7#8) = some 0x204#16 ∧
    get State.pc 0x5120 (regs 1#4 7#8 2#4 8#8) = some 0x202#16 ∧
    charged 0x5120 (base) = some 61 := by
  decide

/-- K7, K9. -/
theorem test_sneReg :
    get State.pc 0x9120 (regs 1#4 7#8 2#4 8#8) = some 0x204#16 ∧
    get State.pc 0x9110 (base) = some 0x202#16 ∧
    charged 0x9110 (base) = some 61 := by
  decide

/-- S3. -/
theorem test_ldImm :
    get (State.getV · 0x3#4) 0x6342 (base) = some 0x42#8 ∧
    get State.pc 0x6342 (base) = some 0x202#16 ∧
    charged 0x6342 (base) = some 27 := by
  decide

/-- Section 2.4: 8-bit wrap, no flag. -/
theorem test_addImm :
    get (State.getV · 0x0#4) 0x70FF (regs 0#4 5#8 0xF#4 0x33#8) = some 4#8 ∧
    get (State.getV · 0xF#4) 0x70FF (regs 0#4 5#8 0xF#4 0x33#8) = some 0x33#8 ∧
    charged 0x70FF (base) = some 45 := by
  decide

/-- Section 2.4. -/
theorem test_ldReg :
    get (State.getV · 0x1#4) 0x8120 ((regs 1#4 0x12#8 2#4 0x34#8).setV 0xF#4 0x77#8) = some 0x34#8 ∧
    get (State.getV · 0xF#4) 0x8120 ((regs 1#4 0x12#8 2#4 0x34#8).setV 0xF#4 0x77#8) = some 0x77#8 := by
  decide

/-- Section 2.4. -/
theorem test_orReg :
    get (State.getV · 0x1#4) 0x8121 ((regs 1#4 0xF0#8 2#4 0x0F#8).setV 0xF#4 0x77#8) = some 0xFF#8 ∧
    get (State.getV · 0xF#4) 0x8121 ((regs 1#4 0xF0#8 2#4 0x0F#8).setV 0xF#4 0x77#8) = some 0x77#8 ∧
    charged 0x8121 ((regs 1#4 0xF0#8 2#4 0x0F#8).setV 0xF#4 0x77#8) = some 200 := by
  decide

/-- Section 2.4. -/
theorem test_andReg :
    get (State.getV · 0x1#4) 0x8122 ((regs 1#4 0xF0#8 2#4 0x3C#8).setV 0xF#4 0x77#8) = some 0x30#8 ∧
    get (State.getV · 0xF#4) 0x8122 ((regs 1#4 0xF0#8 2#4 0x3C#8).setV 0xF#4 0x77#8) = some 0x77#8 ∧
    charged 0x8122 ((regs 1#4 0xF0#8 2#4 0x3C#8).setV 0xF#4 0x77#8) = some 200 := by
  decide

/-- Section 2.4. -/
theorem test_xorReg :
    get (State.getV · 0x1#4) 0x8123 ((regs 1#4 0xFF#8 2#4 0x0F#8).setV 0xF#4 0x77#8) = some 0xF0#8 ∧
    get (State.getV · 0xF#4) 0x8123 ((regs 1#4 0xFF#8 2#4 0x0F#8).setV 0xF#4 0x77#8) = some 0x77#8 ∧
    charged 0x8123 ((regs 1#4 0xFF#8 2#4 0x0F#8).setV 0xF#4 0x77#8) = some 200 := by
  decide

/-- Section 2.4. -/
theorem test_addReg_carry :
    get (State.getV · 0x1#4) 0x8124 ((regs 1#4 0xFF#8 2#4 0x01#8).setV 0xF#4 0x55#8) = some 0x00#8 ∧
    get (State.getV · 0xF#4) 0x8124 ((regs 1#4 0xFF#8 2#4 0x01#8).setV 0xF#4 0x55#8) = some 1#8 := by
  decide

/-- Section 2.4: with `x = 15` the flag overwrites the result (D11). -/
theorem test_addReg_vf :
    get (State.getV · 0xF#4) 0x8F24 (regs 0xF#4 0xFF#8 2#4 1#8) = some 1#8 := by
  decide

/-- Section 2.4. -/
theorem test_sub_borrow :
    get (State.getV · 0x1#4) 0x8125 ((regs 1#4 0x01#8 2#4 0x02#8).setV 0xF#4 0x55#8) = some 0xFF#8 ∧
    get (State.getV · 0xF#4) 0x8125 ((regs 1#4 0x01#8 2#4 0x02#8).setV 0xF#4 0x55#8) = some 0#8 ∧
    charged 0x8125 ((regs 1#4 0x01#8 2#4 0x02#8).setV 0xF#4 0x55#8) = some 200 := by
  decide

/-- Section 2.4: equal operands borrow nothing. -/
theorem test_sub_equal :
    get (State.getV · 0x4#4) 0x8445 (base.setV 4#4 0x42#8) = some 0#8 ∧
    get (State.getV · 0xF#4) 0x8445 (base.setV 4#4 0x42#8) = some 1#8 := by
  decide

/-- Section 2.4. -/
theorem test_subn_borrow :
    get (State.getV · 0x1#4) 0x8127 ((regs 1#4 0x05#8 2#4 0x02#8).setV 0xF#4 1#8) = some 0xFD#8 ∧
    get (State.getV · 0xF#4) 0x8127 ((regs 1#4 0x05#8 2#4 0x02#8).setV 0xF#4 1#8) = some 0#8 ∧
    charged 0x8127 ((regs 1#4 0x05#8 2#4 0x02#8).setV 0xF#4 1#8) = some 200 := by
  decide

/-- Section 2.4. -/
theorem test_subn_vf :
    get (State.getV · 0xF#4) 0x8F27 (regs 0xF#4 1#8 2#4 0#8) = some 0#8 := by
  decide

/-- Section 2.4: the same value in both registers, so that SHIFT_SRC does not matter. -/
theorem test_shr :
    get State.pc 0x8116 (base) = some 0x202#16 ∧
    shrResult 0x05#8 = 0x02#8 ∧
    shrOut 0x05#8 = true ∧
    shrResult 0xF0#8 = 0x78#8 ∧
    shrOut 0xF0#8 = false ∧
    charged 0x8116 (base) = some 200 := by
  decide

/-- Section 2.4. -/
theorem test_shl :
    get State.pc 0x811E (base) = some 0x202#16 ∧
    shlResult 0x81#8 = 0x02#8 ∧
    shlOut 0x81#8 = true ∧
    shlResult 0x01#8 = 0x02#8 ∧
    shlOut 0x40#8 = false ∧
    charged 0x811E (base) = some 200 := by
  decide

/-- Section 2.4: the cost and `PC` of RND; its byte is free. -/
theorem test_rnd :
    get State.pc 0xC30F (base) = some 0x202#16 ∧
    charged 0xC30F (base) = some 164 := by
  decide

/-- M1. -/
theorem test_ldI :
    get State.i 0xA123 (base) = some 0x123#16 ∧
    get State.pc 0xA123 (base) = some 0x202#16 ∧
    charged 0xA123 (base) = some 55 := by
  decide

/-- M2, M3. -/
theorem test_addIVx :
    get State.i 0xF11E ({ base.setV 1#4 1#8 with i := 0xFFF#16 }) = some 0x1000#16 ∧
    get State.i 0xF11E ({ base.setV 1#4 2#8 with i := 0xFFFF#16 }) = some 1#16 ∧
    charged 0xF11E (base) = some 86 := by
  decide

/-- M4, M5: not masked (D26). -/
theorem test_ldFVx :
    get State.i 0xF429 (base.setV 4#4 0x0A#8) = some 0x032#16 ∧
    get State.i 0xF429 (base.setV 4#4 0xFF#8) = some 0x4FB#16 ∧
    charged 0xF429 (base) = some 91 := by
  decide

/-- M6. -/
theorem test_ldBVx :
    get (fun t => t.mem.read 0x300) 0xF133 ({ base.setV 1#4 123#8 with i := 0x300#16 }) = some 1#8 ∧
    get (fun t => t.mem.read 0x301) 0xF133 ({ base.setV 1#4 123#8 with i := 0x300#16 }) = some 2#8 ∧
    get (fun t => t.mem.read 0x302) 0xF133 ({ base.setV 1#4 123#8 with i := 0x300#16 }) = some 3#8 ∧
    get State.i 0xF133 ({ base.setV 1#4 123#8 with i := 0x300#16 }) = some 0x300#16 ∧
    charged 0xF133 ({ base.setV 1#4 123#8 with i := 0x300#16 }) = some 927 := by
  decide

/-- M10, M11. -/
theorem test_ldBVx_stops :
    get State.stopped 0xF133 ({ base with i := 0xFFE#16 }) = some (some (.memOutOfBounds 0x1000)) ∧
    get State.stopped 0xF133 ({ base with i := 0x04E#16 }) = some (some (.fontWrite 0x04E)) := by
  decide

/-- M13. -/
theorem test_ldMemVx :
    get (fun t => t.mem.read 0x400) 0xF255 ({ (regs 0#4 1#8 1#4 2#8).setV 2#4 3#8 with i := 0x400#16 }) = some 1#8 ∧
    get (fun t => t.mem.read 0x401) 0xF255 ({ (regs 0#4 1#8 1#4 2#8).setV 2#4 3#8 with i := 0x400#16 }) = some 2#8 ∧
    get (fun t => t.mem.read 0x402) 0xF255 ({ (regs 0#4 1#8 1#4 2#8).setV 2#4 3#8 with i := 0x400#16 }) = some 3#8 ∧
    get State.i 0xF255 ({ (regs 0#4 1#8 1#4 2#8).setV 2#4 3#8 with i := 0x400#16 }) = some 0x400#16 ∧
    charged 0xF255 ({ (regs 0#4 1#8 1#4 2#8).setV 2#4 3#8 with i := 0x400#16 }) = some 605 := by
  decide

/-- M14, M15, M16. -/
theorem test_ldMemVx_stops :
    get State.stopped 0xF255 ({ base with i := 0x04E#16 }) = some (some (.fontWrite 0x04E)) ∧
    get State.stopped 0xF155 ({ base with i := 0xFFF#16 }) = some (some (.memOutOfBounds 0x1000)) ∧
    get State.stopped 0xF055 ({ base with i := 0xFFFF#16 }) = some (some (.memOutOfBounds 0xFFFF)) := by
  decide

/-- M17. -/
theorem test_ldVxMem :
    get (State.getV · 0x0#4) 0xF165 (bytesAt 0x400 [0xAA#8, 0xBB#8] base) = some 0xAA#8 ∧
    get (State.getV · 0x1#4) 0xF165 (bytesAt 0x400 [0xAA#8, 0xBB#8] base) = some 0xBB#8 ∧
    get State.i 0xF165 (bytesAt 0x400 [0xAA#8, 0xBB#8] base) = some 0x400#16 ∧
    charged 0xF165 (bytesAt 0x400 [0xAA#8, 0xBB#8] base) = some 605 := by
  decide

/-- M19. -/
theorem test_ldVxMem_stops :
    get State.stopped 0xFF65 ({ base with i := 0xFF1#16 }) = some (some (.memOutOfBounds 0x1000)) := by
  decide

/-- G4: wraps at the right edge. -/
theorem test_drw_wraps :
    get (fun t => t.fb[15]) 0xD011 (bytesAt 0x300 [0xFF#8] (regs 0#4 60#8 1#4 1#8)) = some 0x0F#8 ∧
    get (fun t => t.fb[8]) 0xD011 (bytesAt 0x300 [0xFF#8] (regs 0#4 60#8 1#4 1#8)) = some 0xF0#8 ∧
    get (State.getV · 0xF#4) 0xD011 (bytesAt 0x300 [0xFF#8] (regs 0#4 60#8 1#4 1#8)) = some 0#8 ∧
    charged 0xD011 (bytesAt 0x300 [0xFF#8] (regs 0#4 60#8 1#4 1#8)) = some 22734 := by
  decide

/-- G8, G12. -/
theorem test_drw_collides :
    get (fun t => t.fb[0]) 0xD011 (bytesAt 0x300 [0x18#8] { base with fb := base.fb.set 0 0x0F#8 }) = some 0x17#8 ∧
    get (State.getV · 0xF#4) 0xD011 (bytesAt 0x300 [0x18#8] { base with fb := base.fb.set 0 0x0F#8 }) = some 1#8 ∧
    get State.stopped 0xD013 ({ base with i := 0xFFE#16 }) = some (some (.memOutOfBounds 0x1000)) := by
  decide

/-- T1, T2. -/
theorem test_skp :
    get State.pc 0xE19E ({ base.setV 1#4 5#8 with keypad := 0x0020#16 }) = some 0x204#16 ∧
    get State.pc 0xE19E ({ base.setV 1#4 4#8 with keypad := 0x0020#16 }) = some 0x202#16 ∧
    charged 0xE19E (base) = some 73 := by
  decide

/-- T3, T4. -/
theorem test_sknp :
    get State.pc 0xE1A1 ({ base.setV 1#4 5#8 with keypad := 0x0020#16 }) = some 0x202#16 ∧
    get State.pc 0xE1A1 (base.setV 1#4 5#8) = some 0x204#16 ∧
    charged 0xE1A1 (base) = some 73 := by
  decide

/-- T10. -/
theorem test_ldVxDt :
    get (State.getV · 0x1#4) 0xF107 ({ base with dt := 0x2A#8 }) = some 0x2A#8 ∧
    charged 0xF107 (base) = some 27 := by
  decide

/-- T7. -/
theorem test_ldVxK_lowest :
    get (State.getV · 0x3#4) 0xF30A ({ base with keypad := 0x0018#16 }) = some 3#8 ∧
    get State.pc 0xF30A ({ base with keypad := 0x0018#16 }) = some 0x202#16 := by
  decide

/-- T9. -/
theorem test_ldVxK_waits :
    get (State.getV · 0x3#4) 0xF30A (base) = some 0#8 ∧
    get State.pc 0xF30A (base) = some 0x200#16 ∧
    charged 0xF30A (base) = some 200 := by
  decide

/-- T11. -/
theorem test_ldDtVx :
    get State.dt 0xF115 (base.setV 1#4 5#8) = some 5#8 ∧
    charged 0xF115 (base) = some 45 := by
  decide

/-- T12: the tone does not change at once. -/
theorem test_ldStVx :
    get State.st 0xF118 (base.setV 1#4 3#8) = some 3#8 ∧
    get State.tone 0xF118 (base.setV 1#4 3#8) = some false ∧
    charged 0xF118 (base) = some 45 := by
  decide

-- The frame loop and the loader.

/-- The state one step leaves, with nothing placed. -/
def next (s : State) : Option State :=
  match step s with
  | .next t => some t
  | _ => none

/-- T13, T15, T16: the frame start. -/
theorem test_frame_start :
    (next { waiting with st := 1#8, keypad := 0x1234#16 }).map (fun t => (t.tone, t.st, t.dt, t.keypad)) =
      some (true, 0#8, 0#8, 0x0001#16) ∧
    (next waiting).map (fun t => (t.tone, t.elapsedBudget, t.phase)) = some (false, 16666, .running) := by
  decide

/-- B5: a frame start that leaves the budget below zero. -/
theorem test_frame_start_budget :
    (next { waiting with elapsedBudget := -22733 }).map State.elapsedBudget = some (-6067) := by
  decide

/-- B6: the instruction runs in full on one microsecond. -/
theorem test_loop_last_instruction :
    get State.elapsedBudget 0xD010 { base with elapsedBudget := 1 } = some (-22733) := by
  decide

/-- The frame ends with a spent budget (R71). -/
theorem test_loop_ends :
    (next { base with elapsedBudget := 0 }).map (fun t => (t.activity, t.lastResult)) = some (.idle, some .ok) := by
  decide

/-- B7: the fetch bound; nothing is charged. -/
theorem test_fetch_bound :
    (next { base with pc := 0xFFF#16 }).map (fun t => (t.lastResult, t.elapsedBudget)) =
      some (some (.err (.pcOutOfBounds 0xFFF#16)), 16666) := by
  decide

/-- P7: an invalid word. -/
theorem test_invalid_op :
    get State.lastResult 0x5121 base = some (some (.err (.invalidOp 0x51#8 0x21#8))) ∧
    get State.pc 0x5121 base = some 0x200#16 ∧ charged 0x5121 base = some 0 := by
  decide

/-- S1, on two bytes: the image lands at 0x200, high byte of the first word first. -/
theorem test_load_program :
    (next (unloaded [0x12#8, 0x34#8])).map (fun t => (t.mem.read 0x200, t.mem.read 0x201, t.phase)) =
      some (0x12#8, 0x34#8, .loaded) := by
  decide

/-- B9, B10, B11: refused transactions. -/
theorem test_refused :
    next { waiting with stopped := some (.stackUnderflow 0x200#16) } = none ∧
    next { waiting with phase := .created } = none ∧
    next { unloaded [] with phase := .loaded } = none := by
  decide

-- Witnesses: for each obligation with hypotheses, concrete values that meet them, clause by clause.

theorem witness_DecodeOfEncode : (Instr.sys 0x0E1#12).wellFormed = true ∧ (Instr.drw 0xF#4 0xF#4 0xF#4).wellFormed = true := by
  decide

theorem witness_EncodeOfDecode : decodeWord 0x5120#16 = .instr (.seReg 0x1#4 0x2#4) := by decide

/-- One word for each line of R58, at the edge of its range. -/
theorem witness_InvalidWordsAreExactly :
    decode 0x50#8 0x01#8 = .invalid 0x50#8 0x01#8 ∧ decode 0x80#8 0x08#8 = .invalid 0x80#8 0x08#8 ∧
    decode 0x8F#8 0xFF#8 = .invalid 0x8F#8 0xFF#8 ∧ decode 0x9F#8 0x0F#8 = .invalid 0x9F#8 0x0F#8 ∧
    decode 0xE0#8 0x9F#8 = .invalid 0xE0#8 0x9F#8 ∧ decode 0xFF#8 0x66#8 = .invalid 0xFF#8 0x66#8 := by
  decide

theorem witness_FamilyZeroNeverInvalid :
    hiNib 0x00#8 = 0x0#4 ∧ hiNib 0x0F#8 = 0x0#4 ∧
    ¬ ((0x0F#8 : Byte) = 0x00#8 ∧ ((0xE0#8 : Byte) = 0xE0#8 ∨ (0xE0#8 : Byte) = 0xEE#8)) := by
  decide

/-- Both clauses, on a SYS word and on a word of family F. -/
theorem witness_WordSelectsItsRow :
    decodeWord 0x0FFF#16 = .instr (.sys 0xFFF#12) ∧
    0x0FFF#16 &&& (tableRow (.sys 0x123#12)).1 = (tableRow (.sys 0x123#12)).2 ∧
    0xF965#16 &&& (tableRow (.ldVxMem 0x0#4)).1 = (tableRow (.ldVxMem 0x0#4)).2 := by
  decide

/-- A CALL at the highest address, from a legal stack and from a full one. -/
def atCall (sp : Byte) : State := { base.withFetchWord 16 0x2400 with sp := sp }

/-- A state about to fetch at 4094. -/
def atTop : State := { base with pc := 0xFFE#16 }.withFetchWord 16 0x2400

theorem witness_StepRunsDecodedInstruction :
    atTop.activity = .inFrame ∧ 0 < atTop.elapsedBudget ∧ atTop.pc.toNat = 4094 ∧
    decode (atTop.mem.read atTop.pc.toNat) (atTop.mem.read (atTop.pc.toNat + 1)) = .instr (.call 0x400#12) ∧
    (execNext (.call 0x400#12) atTop).isSome = true ∧
    decode ((atCall 16#8).mem.read 0x200) ((atCall 16#8).mem.read 0x201) = .instr (.call 0x400#12) ∧
    execStop (.call 0x400#12) (atCall 16#8) = some (.stackOverflow 0x200#16) := by
  decide

theorem witness_FetchBound :
    4094 < { base with pc := 0xFFF#16 }.pc.toNat ∧ { base with pc := 0xFFF#16 }.activity = .inFrame ∧
    0 < { base with pc := 0xFFF#16 }.elapsedBudget ∧ atTop.pc.toNat ≤ 4094 ∧
    atTop.fetchDecode = .instr (.call 0x400#12) := by
  decide

/-- An invalid word at the highest address. -/
def atInvalid : State := { base with pc := 0xFFE#16 }.withFetchWord 16 0x5121

theorem witness_InvalidWordEndsFrame :
    atInvalid.activity = .inFrame ∧ 0 < atInvalid.elapsedBudget ∧ atInvalid.pc.toNat ≤ 4094 ∧
    atInvalid.mem.read atInvalid.pc.toNat = 0x51#8 ∧ atInvalid.mem.read (atInvalid.pc.toNat + 1) = 0x21#8 ∧
    decode 0x51#8 0x21#8 = .invalid 0x51#8 0x21#8 := by
  decide

theorem witness_LoopTest :
    { base with elapsedBudget := 0 }.activity = .inFrame ∧ { base with elapsedBudget := 0 }.elapsedBudget ≤ 0 ∧
    0 < { atTop with elapsedBudget := 1 }.elapsedBudget ∧ atTop.fetchDecode = .instr (.call 0x400#12) ∧
    (execNext (.call 0x400#12) { atTop with elapsedBudget := 1 }).isSome = true := by
  decide

/-- Both values of each timer clause: 0, and 1 at its edge. -/
theorem witness_KeypadAndTimersAtFrameStart :
    waiting.activity = .idle ∧ waiting.stopped = none ∧ waiting.phase ≠ .created ∧
    waiting.pending = [.runFrame 0x0001#16] ∧ waiting.dt = 0#8 ∧ waiting.st = 0#8 ∧
    { waiting with dt := 1#8, st := 1#8 }.dt ≠ 0#8 ∧ { waiting with dt := 1#8, st := 1#8 }.st ≠ 0#8 := by
  decide

theorem witness_FrameStartAddsBudget :
    waiting.activity = .idle ∧ waiting.stopped = none ∧ waiting.phase ≠ .created ∧
    waiting.pending = .runFrame 0x0001#16 :: [] := by
  decide

theorem witness_OutOfOrderTransactionsRefused :
    { waiting with stopped := some (.fontWrite 0x4F) }.stopped = some (.fontWrite 0x4F) ∧
    { waiting with phase := .created }.phase = .created ∧ waiting.pending = .runFrame 0x0001#16 :: [] ∧
    { unloaded [0x00#8] with phase := .running }.phase ≠ .created ∧
    { unloaded [0x00#8] with phase := .running }.pending = .loadProgram [0x00#8] :: [] ∧
    { unloaded [0x00#8] with phase := .running }.activity = .idle ∧ waiting.activity = .idle := by
  decide

/-- The longest image. -/
theorem witness_LoadProgramPlacesRom :
    (unloaded (List.replicate 3584 0xFF#8)).activity = .idle ∧
    (unloaded (List.replicate 3584 0xFF#8)).stopped = none ∧
    (unloaded (List.replicate 3584 0xFF#8)).phase = .created ∧
    (unloaded (List.replicate 3584 0xFF#8)).pending = .loadProgram (List.replicate 3584 0xFF#8) :: [] ∧
    (List.replicate 3584 0xFF#8).length ≤ 3584 := by
  refine ⟨rfl, rfl, rfl, rfl, ?_⟩
  rw [List.length_replicate]

/-- The shortest image that is too long. -/
theorem witness_LoadProgramTooLong :
    (unloaded (List.replicate 3585 0xFF#8)).phase = .created ∧
    (unloaded (List.replicate 3585 0xFF#8)).pending = .loadProgram (List.replicate 3585 0xFF#8) :: [] ∧
    (unloaded (List.replicate 3585 0xFF#8)).activity = .idle ∧
    (unloaded (List.replicate 3585 0xFF#8)).stopped = none ∧
    3584 < (List.replicate 3585 0xFF#8).length := by
  refine ⟨rfl, rfl, rfl, rfl, ?_⟩
  rw [List.length_replicate]; decide

theorem witness_CreateLeavesResetState : ∃ s, s = State.create 0xFFFFFFFFFFFFFFFF#64 := ⟨_, rfl⟩

theorem witness_IdleCoreKeepsState :
    (State.create 0#64).activity = .idle ∧ (State.create 0#64).pending = [] := by
  decide

/-- What program P6 of spec/95_test_vectors.md leaves after its first frame, with a second frame waiting. -/
def afterP6 : State :=
  { State.create 0#64 with
    pc := 0xFFF#16, phase := .running, elapsedBudget := 16561, lastResult := some (.err (.pcOutOfBounds 0xFFF#16))
    mem := [(0x200, 0x1F#8), (0x201, 0xFF#8)], pending := [.runFrame 0x0000#16] }

theorem afterP6_failed : afterP6.fetchFailed := ⟨.pcOutOfBounds 0xFFF#16, rfl, .inr ⟨_, rfl⟩⟩

theorem afterP6_inv : Inv afterP6 where
  memWf := by decide
  fontKept a ha := by
    have h0 : (0x200 : Nat) ≠ a := by simp at ha; omega
    have h1 : (0x201 : Nat) ≠ a := by simp at ha; omega
    simp [afterP6, Memory.find, h0, h1]
  spLegal := by decide
  stackLegal k h := by simp [afterP6, State.create]
  pcLegal := by decide
  framePhase h := by simp [afterP6, State.create] at h
  stopLast f h := by simp [afterP6, State.create] at h
  budgetLow := by
    have : (0 : Int) ≤ (maxCost : Int) := Int.natCast_nonneg _
    simp only [afterP6]
    omega
  budgetHigh h := absurd afterP6_failed h
  budgetSpent _ _ h := absurd afterP6_failed h
  errorStays _ := ⟨rfl, by decide, .pcOutOfBounds 0xFFF#16, rfl, by decide⟩
  noDebug := by decide

theorem witness_CoreErrorRepeats :
    Inv afterP6 ∧ afterP6.fetchFailed ∧ afterP6.activity = .idle ∧
    afterP6.pending = .runFrame 0x0000#16 :: [] :=
  ⟨afterP6_inv, afterP6_failed, rfl, rfl⟩

theorem witness_StarvedFrameRunsNothing :
    { waiting with elapsedBudget := -16666 }.activity = .idle ∧ waiting.stopped = none ∧ waiting.phase ≠ .created ∧
    waiting.pending = .runFrame 0x0001#16 :: [] ∧ { waiting with elapsedBudget := -16666 }.elapsedBudget ≤ -16666 := by
  decide

/-- A DRW of one row about to run. -/
def atDraw : State := (bytesAt 0x300 [0x80#8] base).withFetchWord 16 0xD011

theorem witness_DrawEndsTheFrame :
    atDraw.activity = .inFrame ∧ 0 < atDraw.elapsedBudget ∧ atDraw.elapsedBudget ≤ 16666 ∧
    atDraw.fetchDecode = .instr (.drw 0x0#4 0x1#4 0x1#4) ∧
    (execNext (.drw 0x0#4 0x1#4 0x1#4) atDraw).isSome = true := by
  decide

theorem witness_FrameAlwaysEnds : atDraw.activity = .inFrame := by decide

theorem witness_RunFrameIsTheSteps :
    waiting.activity = .idle ∧ waiting.pending = .runFrame 0x0001#16 :: [] ∧
    waiting.admission (.runFrame 0x0001#16) = none := by
  decide

theorem witness_StepKeepsInvariant : Inv afterP6 ∧ ∃ t, step afterP6 = .next t := ⟨afterP6_inv, _, rfl⟩

theorem witness_FontBytesNeverChange : (∃ t, step afterP6 = .next t) ∧ 0x04F < 0x050 := ⟨⟨_, rfl⟩, by decide⟩

/-- A writer of each element that `OnlyTheirInstructionsWrite` names completes. -/
theorem witness_OnlyTheirInstructionsWrite :
    (execNext (.call 0x400#12) base).isSome = true ∧ (execNext .ret { base with sp := 1#8 }).isSome = true ∧
    (execNext (.ldI 0x001#12) base).isSome = true ∧ (execNext (.ldDtVx 0x0#4) base).isSome = true ∧
    (execNext .cls base).isSome = true ∧ (execNext (.rnd 0x0#4 0xFF#8) base).isSome = true ∧
    (execNext (.ldBVx 0x0#4) { base with i := 0x300#16 }).isSome = true ∧
    (execNext (.skp 0x0#4) (base.setV 0x0#4 0x10#8)).isSome = true := by
  decide

theorem witness_OnlyNamedRegistersWritten :
    (execNext (.ldImm 0xE#4 0x01#8) base).isSome = true ∧
    get (State.getV · 0xE#4) 0x6E01 base ≠ some (base.getV 0xE#4) := by
  decide

/-- Each case of the table of R20. -/
theorem witness_NextPcOfEachInstruction :
    (execNext (.jp 0xFFF#12) base).isSome = true ∧ (execNext (.call 0xFFF#12) base).isSome = true ∧
    (execNext .ret { base with sp := 16#8 }).isSome = true ∧ (execNext (.jpV0 0xFFF#12) base).isSome = true ∧
    (execNext (.seImm 0x0#4 0x00#8) base).isSome = true ∧ (execNext (.sneImm 0x0#4 0x00#8) base).isSome = true ∧
    (execNext (.seReg 0x0#4 0x1#4) base).isSome = true ∧ (execNext (.sneReg 0x0#4 0x1#4) base).isSome = true ∧
    (execNext (.skp 0x0#4) base).isSome = true ∧ (execNext (.sknp 0x0#4) base).isSome = true ∧
    (execNext (.ldVxK 0x0#4) base).isSome = true ∧ (execNext (.addImm 0x0#4 0xFF#8) base).isSome = true := by
  decide

theorem witness_ReturnPopsStack :
    base.sp = 0#8 ∧ 0 < { base with sp := 1#8 }.sp.toNat ∧ { base with sp := 1#8 }.sp.toNat ≤ 16 ∧
    0 < { base with sp := 16#8 }.sp.toNat ∧ { base with sp := 16#8 }.sp.toNat ≤ 16 := by
  decide

theorem witness_CallPushesReturnAddress :
    (atCall 16#8).sp = 16#8 ∧ (atCall 15#8).sp.toNat < 16 ∧ (atCall 0#8).sp.toNat < 16 := by
  decide

theorem witness_SysIsNoOp : (0x0E1#12 : Imm12) ≠ 0x0E0#12 ∧ (0x0E1#12 : Imm12) ≠ 0x0EE#12 := by decide

theorem witness_SkipsOnRegisters : ∃ x y : Nibble, x = y := ⟨0xF#4, 0xF#4, rfl⟩

/-- The sums 255 and 256, where the two clauses meet. -/
theorem witness_AddWithCarry :
    (0x1#4 : Nibble) ≠ 0xF#4 ∧
    255 < ((regs 0x1#4 0xFF#8 0x2#4 0x01#8).getV 0x1#4).toNat + ((regs 0x1#4 0xFF#8 0x2#4 0x01#8).getV 0x2#4).toNat ∧
    ((regs 0x1#4 0xFE#8 0x2#4 0x01#8).getV 0x1#4).toNat + ((regs 0x1#4 0xFE#8 0x2#4 0x01#8).getV 0x2#4).toNat ≤ 255 := by
  decide

/-- Equal operands, and operands that differ by one each way. -/
theorem witness_SubtractWithNotBorrow :
    (0x1#4 : Nibble) ≠ 0xF#4 ∧
    ((regs 0x1#4 0x02#8 0x2#4 0x02#8).getV 0x2#4).toNat ≤ ((regs 0x1#4 0x02#8 0x2#4 0x02#8).getV 0x1#4).toNat ∧
    ((regs 0x1#4 0x01#8 0x2#4 0x02#8).getV 0x1#4).toNat < ((regs 0x1#4 0x01#8 0x2#4 0x02#8).getV 0x2#4).toNat ∧
    ((regs 0x1#4 0x02#8 0x2#4 0x01#8).getV 0x2#4).toNat < ((regs 0x1#4 0x02#8 0x2#4 0x01#8).getV 0x1#4).toNat := by
  decide

/-- The same value in both registers is the source whatever SHIFT_SRC is. -/
theorem witness_ShiftsByOne :
    (Config.shiftSrc = .x → 0x81#8 = (regs 0x1#4 0x81#8 0x2#4 0x81#8).getV 0x1#4) ∧
    (Config.shiftSrc = .y → 0x81#8 = (regs 0x1#4 0x81#8 0x2#4 0x81#8).getV 0x2#4) ∧ (0x1#4 : Nibble) ≠ 0xF#4 :=
  ⟨fun _ => by decide, fun _ => by decide, by decide⟩

theorem witness_RandomByteUnderMask : (0x00#8 : Byte) = 0#8 ∧ (0x1#4 : Nibble) ≠ 0x3#4 := by decide

theorem witness_RandomDependsOnGeneratorOnly :
    base.rngState = waiting.rngState ∧ (execNext (.rnd 0x3#4 0x0F#8) base).isSome = true ∧
    (execNext (.rnd 0x3#4 0x0F#8) waiting).isSome = true :=
  ⟨rfl, rfl, rfl⟩

/-- The edges of the three ranges of `I`: the lowest and the highest place for three bytes, and just outside each. -/
theorem witness_BcdStoresThreeDigits :
    0x050 ≤ { base with i := 0x050#16 }.indexAddr 0 ∧ { base with i := 0xFFD#16 }.indexAddr 2 ≤ 0xFFF ∧
    0x050 ≤ { base with i := 0xFFD#16 }.indexAddr 0 ∧ { base with i := 0x050#16 }.indexAddr 2 ≤ 0xFFF ∧
    0xFFF < { base with i := 0xFFE#16 }.indexAddr 2 ∧ { base with i := 0x04F#16 }.indexAddr 0 ≤ 0x04F := by
  decide

theorem witness_BlockStore :
    0x050 ≤ { base with i := 0x050#16 }.indexAddr 0 ∧ { base with i := 0x050#16 }.indexAddr 15 ≤ 0xFFF ∧
    0x050 ≤ { base with i := 0xFF0#16 }.indexAddr 0 ∧ { base with i := 0xFF0#16 }.indexAddr 15 ≤ 0xFFF ∧
    0xFFF < { base with i := 0xFF1#16 }.indexAddr 15 ∧ { base with i := 0x04F#16 }.indexAddr 0 ≤ 0x04F ∧
    (0xF#4 : Nibble).toNat ≤ (0xF#4 : Nibble).toNat := by
  decide

theorem witness_BlockLoad :
    { base with i := 0x000#16 }.indexAddr 15 ≤ 0xFFF ∧ { base with i := 0xFF0#16 }.indexAddr 15 ≤ 0xFFF ∧
    0xFFF < { base with i := 0xFF1#16 }.indexAddr 15 ∧ (0xF#4 : Nibble).toNat ≤ (0xF#4 : Nibble).toNat := by
  decide

/-- No rows with `I` anywhere; the highest place for three rows; one above it. -/
theorem witness_DrawFlipsSpritePixels :
    { base with i := 0xFFD#16 }.indexAddr (0x3#4 : Nibble).toNat ≤ 0x1000 ∧ (0x3#4 : Nibble) ≠ 0x0#4 ∧
    0x1000 < { base with i := 0xFFE#16 }.indexAddr (0x3#4 : Nibble).toNat := by
  decide

/-- A pixel the sprite covers, clear and then set, and one it does not cover. -/
theorem witness_DrawFlipsSpritePixels_pixels :
    spriteCovers atDraw 0x0#4 0x1#4 0x1#4 0 0 ∧ ¬ spriteCovers atDraw 0x0#4 0x1#4 0x1#4 0 1 ∧
    getPixel atDraw.fb 0 0 = false ∧ getPixel (atDraw.fb.set 0 0x80#8) 0 0 = true := by
  refine ⟨⟨0, 0, by decide, by decide, by decide, by decide, by decide⟩, ?_, by decide, by decide⟩
  rintro ⟨r, c, hr, -, -, -, hy⟩
  have h1 : (1 : Fin 32).val = 1 := rfl
  have h2 : (atDraw.getV 0x1#4).toNat = 0 := by decide
  have h3 : (0x1#4 : Nibble).toNat = 1 := rfl
  rw [h3] at hr
  rw [h1, h2] at hy
  omega

/-- A clear screen has no pixel for a sprite to clear. -/
theorem witness_DrawFlipsSpritePixels_clear :
    ∀ px py, spriteCovers atDraw 0x0#4 0x1#4 0x1#4 px py → getPixel atDraw.fb px py = false := by
  intro px py _
  have h : atDraw.fb = Vector.replicate 256 0#8 := rfl
  rw [h]
  simp [getPixel]

theorem witness_DrawByteFormIsPixelForm : 63 < 64 ∧ 31 < 32 := by decide

/-- Two draws of one sprite on a clear screen. -/
theorem witness_DrawTwiceRestores :
    (0x0#4 : Nibble) ≠ 0xF#4 ∧ (0x1#4 : Nibble) ≠ 0xF#4 ∧
    ((execNext (.drw 0x0#4 0x1#4 0x1#4) atDraw).bind (execNext (.drw 0x0#4 0x1#4 0x1#4))).isSome = true ∧
    0 < (0x1#4 : Nibble).toNat ∧ atDraw.mem.read (atDraw.indexAddr 0) ≠ 0#8 := by
  decide

theorem witness_KeySkips :
    ((base.setV 0x1#4 15#8).getV 0x1#4).toNat ≤ 15 ∧ 15 < ((base.setV 0x1#4 16#8).getV 0x1#4).toNat := by
  decide

/-- No key, key 15 alone, and keys 3 and 4 held. -/
theorem witness_KeyWaitTakesLowestKey :
    base.keypad = 0#16 ∧ { base with keypad := 0x8000#16 }.keypad.getLsbD 15 = true ∧
    (∀ j, j < 15 → { base with keypad := 0x8000#16 }.keypad.getLsbD j = false) ∧
    { base with keypad := 0x0018#16 }.keypad.getLsbD 3 = true ∧
    (∀ j, j < 3 → { base with keypad := 0x0018#16 }.keypad.getLsbD j = false) ∧
    { base with keypad := 0x0018#16 }.keypad ≠ 0#16 := by
  decide

end Sys2Proof.Tests.Slice0
end

section
/-! PROOFS. The new `PC` of every instruction (spec/10_state.md R20, obligation O29): what the operations that have no
`PC` lemma yet do to `PC`, the jump targets as numbers, the key wait, and the table assembled from them. -/

namespace Sys2Proof.Machine

@[simp] theorem State.storeRegs_pc (s : State) (n : Nat) : (s.storeRegs n).pc = s.pc := by
  rw [State.storeRegs_eq]

@[simp] theorem State.loadRegs_pc (s : State) (n : Nat) : (s.loadRegs n).pc = s.pc := by
  rw [State.loadRegs_eq]

@[simp] theorem State.afterKeyTest_pc (s : State) (k : Byte) : (s.afterKeyTest k).pc = s.pc := by
  rw [State.afterKeyTest_eq]

/-- An address keeps its value as a 16-bit word (spec/30_encoding.md R53). -/
@[simp] theorem zextAddr_toNat (nnn : Imm12) : (zextAddr nnn).toNat = nnn.toNat :=
  BitVec.toNat_setWidth_of_le (by decide)

/-- A byte keeps its value as a 16-bit word (spec/30_encoding.md R53). -/
@[simp] theorem zextByte_toNat (b : Byte) : (zextByte b).toNat = b.toNat :=
  BitVec.toNat_setWidth_of_le (by decide)

/-- The target of `JP V0` does not wrap: a byte plus an address is below 2^16 (spec/41_flow.md R87). -/
theorem zextByte_add_zextAddr_toNat (b : Byte) (nnn : Imm12) :
    (zextByte b + zextAddr nnn).toNat = b.toNat + nnn.toNat := by
  have hb := b.isLt
  have hn := nnn.isLt
  rw [BitVec.toNat_add, zextByte_toNat, zextAddr_toNat, Nat.mod_eq_of_lt (by omega)]

/-- No lowest key exactly where the latched mask is empty (spec/46_timers_keys.md R125). -/
theorem State.lowestKey_eq_none (s : State) : s.lowestKey = none ↔ s.keypad = 0#16 := by
  simp only [State.lowestKey, State.keyHeld, List.find?_eq_none, List.mem_range, Bool.not_eq_true]
  constructor
  · intro h
    exact BitVec.eq_of_getLsbD_eq fun k hk => by rw [h k hk, BitVec.getLsbD_zero]
  · intro h k _
    rw [h, BitVec.getLsbD_zero]

/-- `Fx0A` holds `PC` while no key is held, and else advances (spec/46_timers_keys.md R125). -/
theorem State.keyWait_lowestKey_pc (s : State) (x : Nibble) :
    (s.keyWait x s.lowestKey).pc = if s.keypad = 0#16 then s.pc else s.pc + 2#16 := by
  cases hk : s.lowestKey with
  | none => rw [if_pos (s.lowestKey_eq_none.1 hk)]; rfl
  | some k =>
    have hne : s.keypad ≠ 0#16 := fun h => by simp [s.lowestKey_eq_none.2 h] at hk
    rw [if_neg hne]; rfl

/-- A skip goes where its condition says (spec/42_skip.md R89). -/
theorem State.skipIf_pc_eq_skipTarget (s : State) {b : Bool} {c : Prop} [Decidable c] (h : b = true ↔ c) :
    (s.skipIf b).pc = skipTarget s c := by
  rw [State.skipIf_pc, skipTarget]
  exact if_congr h rfl rfl

/-- The key test of a key skip moves no target (spec/46_timers_keys.md R121). -/
theorem State.skipTarget_afterKeyTest (s : State) (k : Byte) (c : Prop) [Decidable c] :
    skipTarget (s.afterKeyTest k) c = skipTarget s c := by
  rw [skipTarget, skipTarget, State.afterKeyTest_pc]

/-- A return that completes pops an entry that is there (spec/41_flow.md R84). -/
theorem State.stack_getElem?_eq_topOfStack (s : State) (h : s.popStop = none) :
    s.stack[s.sp.toNat - 1]? = some s.topOfStack := by
  obtain ⟨hpos, hle⟩ := s.popStop_eq_none.1 h
  rw [s.topOfStack_eq hpos hle, Vector.getElem?_eq_getElem]

/-- A meaning without a stop completes in the state it names. -/
theorem pc_of_next {t u : State} (h : (.next u : Result) = .next t) : t.pc = u.pc := by
  cases h; rfl

/-- A meaning with a stop, where it completes, completes in the state it names. -/
theorem pc_of_stopOr {c : Option Fault} {t u : State} (h : stopOr c u = .next t) : t.pc = u.pc := by
  rw [((stopOr_next c u t).1 h).2]

/-- Settles O29, by the constructors of the instruction: an instruction that jumps, skips or waits has a target lemma of
its own, and every other one ends in `State.advance` with `PC` as it was. -/
theorem nextPcOfEachInstruction : Obligations.NextPcOfEachInstruction := by
  intro i s t h
  cases i
  case jp nnn => exact (congrArg BitVec.toNat (pc_of_next h)).trans (zextAddr_toNat nnn)
  case call nnn => exact (congrArg BitVec.toNat (pc_of_stopOr h)).trans (zextAddr_toNat nnn)
  case jpV0 nnn => exact (congrArg BitVec.toNat (pc_of_next h)).trans (zextByte_add_zextAddr_toNat _ nnn)
  case ret =>
    obtain ⟨hstop, rfl⟩ := (stopOr_next _ _ _).1 h
    exact s.stack_getElem?_eq_topOfStack hstop
  case seImm | seReg => exact (pc_of_next h).trans (s.skipIf_pc_eq_skipTarget beq_iff_eq)
  case sneImm | sneReg => exact (pc_of_next h).trans (s.skipIf_pc_eq_skipTarget bne_iff_ne)
  case skp x =>
    exact (pc_of_next h).trans ((State.skipIf_pc_eq_skipTarget _ Iff.rfl).trans (s.skipTarget_afterKeyTest _ _))
  case sknp x =>
    exact (pc_of_next h).trans
      ((State.skipIf_pc_eq_skipTarget _ (iff_of_eq (Bool.not_eq_true' _))).trans (s.skipTarget_afterKeyTest _ _))
  case ldVxK x => exact (pc_of_next h).trans (s.keyWait_lowestKey_pc x)
  case ldMemVx x => exact (pc_of_stopOr h).trans (by rw [State.advance_pc, State.storeRegs_pc])
  case ldVxMem x => exact (pc_of_stopOr h).trans (by rw [State.advance_pc, State.loadRegs_pc])
  case drw | ldBVx => exact pc_of_stopOr h
  case cls | sys | ldImm | addImm | ldReg | orReg | andReg | xorReg | addReg | sub | shr | subn | shl | ldI | rnd |
      ldVxDt | ldDtVx | ldStVx | addIVx | ldFVx =>
    exact pc_of_next h

end Sys2Proof.Machine
end

section
/-! PROOFS. Family 0 of the decoder (spec/30_encoding.md R56, obligation O4): the dispatch on the opcode nibble reaches
`decodeFamily0`, whose two fixed words come first. -/

namespace Sys2Proof

/-- A word with opcode nibble 0 is decoded by family 0 (spec/30_encoding.md R55). -/
theorem decode_eq_decodeFamily0 {w0 w1 : Byte} (h : hiNib w0 = 0x0#4) : decode w0 w1 = decodeFamily0 w0 w1 := by
  simp only [decode, h]

/-- A word of family 0 other than CLS and RET is a SYS with its address (spec/30_encoding.md R56). -/
theorem decodeFamily0_eq_sys {w0 w1 : Byte} (h : ¬ (w0 = 0x00#8 ∧ (w1 = 0xE0#8 ∨ w1 = 0xEE#8))) :
    decodeFamily0 w0 w1 = .instr (.sys (fieldNnn w0 w1)) := by
  have hcls : ¬ (w0 = 0x00#8 ∧ w1 = 0xE0#8) := fun hw => h ⟨hw.1, .inl hw.2⟩
  have hret : ¬ (w0 = 0x00#8 ∧ w1 = 0xEE#8) := fun hw => h ⟨hw.1, .inr hw.2⟩
  rw [decodeFamily0, if_neg hcls, if_neg hret]

/-- Settles O4, by the three branches of `decodeFamily0`: the word of CLS, the word of RET, every other word. -/
theorem familyZeroNeverInvalid : Obligations.FamilyZeroNeverInvalid := by
  intro w0 w1 hfam
  rw [decode_eq_decodeFamily0 hfam]
  refine ⟨?cls, ?ret, decodeFamily0_eq_sys⟩
  case cls => rintro ⟨rfl, rfl⟩; rfl
  case ret => rintro ⟨rfl, rfl⟩; rfl

end Sys2Proof
end

section
/-! PROOFS. The frame cycle (spec/40_frame_cycle.md): fetch and decode at and above the bound (obligations O8, O9), the
three ends of one turn of the loop (O10), and the start of an admitted frame (O11). -/

namespace Sys2Proof.Machine

/-- Above `MAX_PC_FETCH` no fetch succeeds (spec/40_frame_cycle.md R72). -/
theorem State.fetchDecode_of_gt (s : State) (hpc : 4094 < s.pc.toNat) :
    s.fetchDecode = .error (.pcOutOfBounds s.pc) :=
  if_pos hpc

/-- Up to `MAX_PC_FETCH` a fetch reads at `PC` (spec/40_frame_cycle.md R72). -/
theorem State.fetchDecode_of_le (s : State) (hpc : s.pc.toNat ≤ 4094) : s.fetchDecode = s.decodeAt s.pc.toNat :=
  if_neg (Nat.not_lt.2 hpc)

/-- What is fetched is an instruction exactly where the two bytes decode to it (spec/40_frame_cycle.md R73). -/
theorem State.decodeAt_eq_instr (s : State) (a : Nat) (i : Instr) :
    s.decodeAt a = .instr i ↔ decode (s.mem.read a) (s.mem.read (a + 1)) = .instr i := by
  rw [State.decodeAt]
  cases decode (s.mem.read a) (s.mem.read (a + 1)) <;> simp

/-- An invalid word is the core error `InvalidOp` (spec/40_frame_cycle.md R73). -/
theorem State.decodeAt_of_invalid (s : State) (a : Nat) {w0 w1 : Byte}
    (h : decode (s.mem.read a) (s.mem.read (a + 1)) = .invalid w0 w1) :
    s.decodeAt a = .error (.invalidOp w0 w1) := by
  rw [State.decodeAt, h]

/-- CHECK with the budget spent is DONE (spec/40_frame_cycle.md R71). -/
theorem step_of_budget_spent {s : State} (hact : s.activity = .inFrame) (hb : s.elapsedBudget ≤ 0) :
    step s = .next (s.endWith .ok) := by
  rw [step_inFrame s hact, frameStep, if_neg (Int.not_lt.2 hb)]

/-- A fetch or decode that fails ends the frame (spec/40_frame_cycle.md R77). -/
theorem step_of_fetchDecode_error {s : State} {e : CoreError} (hact : s.activity = .inFrame)
    (hb : 0 < s.elapsedBudget) (hf : s.fetchDecode = .error e) : step s = .next (s.endWith (.err e)) := by
  rw [step_inFrame s hact, frameStep, if_pos hb, hf]

/-- A fetched instruction goes to its handler (spec/40_frame_cycle.md R74). -/
theorem step_of_fetchDecode_instr {s : State} {i : Instr} (hact : s.activity = .inFrame)
    (hb : 0 < s.elapsedBudget) (hf : s.fetchDecode = .instr i) : step s = afterExec i s (exec i s) := by
  rw [step_inFrame s hact, frameStep, if_pos hb, hf]

/-- `run_frame` is admitted after a load, where no stop has happened (spec/40_frame_cycle.md R66). -/
theorem State.admission_runFrame (s : State) (m : Word) (hstop : s.stopped = none) (hphase : s.phase ≠ .created) :
    s.admission (.runFrame m) = none := by
  unfold State.admission
  rw [hstop]
  cases hp : s.phase with
  | created => exact absurd hp hphase
  | loaded | running => rfl

/-- An admitted `run_frame` leaves the queue and goes through FRAME_START (spec/40_frame_cycle.md R66 to R70). -/
theorem step_runFrame {s : State} {m : Word} {rest : List HostCall} (hact : s.activity = .idle)
    (hpend : s.pending = .runFrame m :: rest) (hadm : s.admission (.runFrame m) = none) :
    step s = .next ({ s with pending := rest }.frameStart m) := by
  simp only [step_idle s hact, hostStep, hpend, hadm, State.begin]

/-- A timer that is not 0 counts down by one, without a borrow (spec/40_frame_cycle.md R68, R69). -/
theorem toNat_sub_one_of_ne_zero {b : Byte} (h : b ≠ 0#8) : (b - 1#8).toNat = b.toNat - 1 := by
  bv_omega

/-- Settles O8, by the two sides of the fetch bound. -/
theorem fetchBound : Obligations.FetchBound := by
  intro s
  refine ⟨fun hpc hact hb => ?above, fun hpc i => ?within⟩
  case above => exact step_of_fetchDecode_error hact hb (s.fetchDecode_of_gt hpc)
  case within =>
    rw [s.fetchDecode_of_le hpc]
    exact s.decodeAt_eq_instr s.pc.toNat i

/-- Settles O9: the invalid word is a core error of decode, which ends the frame. -/
theorem invalidWordEndsFrame : Obligations.InvalidWordEndsFrame := by
  rintro s _ _ hact hb hpc rfl rfl hinv
  have hf := (s.fetchDecode_of_le hpc).trans (s.decodeAt_of_invalid _ hinv)
  exact step_of_fetchDecode_error hact hb hf

/-- Settles O10, by the two sides of the test: a handler that completes is charged its whole cost, however little budget
is left. -/
theorem loopTest : Obligations.LoopTest := by
  intro s hact
  refine ⟨fun hb => ?spent, fun hb i t hf hexec => ?left⟩
  case spent => exact step_of_budget_spent hact hb
  case left =>
    rw [step_of_fetchDecode_instr hact hb hf, hexec]
    rfl

/-- Settles O11: the step is FRAME_START, and each timer is 0 or counts down. -/
theorem keypadAndTimersAtFrameStart : Obligations.KeypadAndTimersAtFrameStart := by
  intro s m rest hact hstop hphase hpend
  refine ⟨_, step_runFrame hact hpend (s.admission_runFrame m hstop hphase), State.frameStart_keypad _ m,
    fun hdt => ?dtCounts, fun hdt => ?dtZero, fun hst => ⟨?stCounts, ?toneOn⟩, fun hst => ⟨?stZero, ?toneOff⟩⟩
  case dtCounts => rw [State.frameStart_dt, if_neg hdt, toNat_sub_one_of_ne_zero hdt]
  case dtZero => rw [State.frameStart_dt, if_pos hdt, hdt]
  case stCounts => rw [State.frameStart_st, if_neg hst, toNat_sub_one_of_ne_zero hst]
  case toneOn => rw [State.frameStart_tone]; exact bne_iff_ne.2 hst
  case stZero => rw [State.frameStart_st, if_pos hst, hst]
  case toneOff => rw [State.frameStart_tone]; exact bne_eq_false_iff_eq.2 hst

end Sys2Proof.Machine
end

section
/-! PROOFS. The jumps (spec/41_flow.md R85, R87; obligations O31, O33): the words of the two jumps, the fetch bound as an
equivalence, and what `State.jump` to the target leaves unchanged. -/

namespace Sys2Proof.Machine

/-- The row of JP (spec/30_encoding.md R57). -/
theorem hasRow_jp (nnn : Imm12) : HasRow (.jp nnn) (formatNnn 0x1#4 nnn) 105 :=
  ⟨by simp [decodeWord, decode], rfl⟩

/-- The row of JP V0 (spec/30_encoding.md R57). -/
theorem hasRow_jpV0 (nnn : Imm12) : HasRow (.jpV0 nnn) (formatNnn 0xB#4 nnn) 105 :=
  ⟨by simp [decodeWord, decode], rfl⟩

/-- JP completes in one jump to its address (spec/41_flow.md R85). -/
theorem exec_jp (nnn : Imm12) (s : State) : exec (.jp nnn) s = .next (s.jump (zextAddr nnn)) := rfl

/-- JP V0 completes in one jump to V0 plus its address (spec/41_flow.md R87). -/
theorem exec_jpV0 (nnn : Imm12) (s : State) :
    exec (.jpV0 nnn) s = .next (s.jump (zextByte (s.getV 0x0#4) + zextAddr nnn)) := rfl

/-- Decoding at an address finds an instruction or an invalid word, never a `PC` out of bounds
(spec/40_frame_cycle.md R73). -/
theorem State.decodeAt_ne_pcOutOfBounds (s : State) (a : Nat) (pc : Word) :
    s.decodeAt a ≠ .error (.pcOutOfBounds pc) := by
  rw [State.decodeAt]
  cases decode (s.mem.read a) (s.mem.read (a + 1)) <;> simp

/-- A fetch raises `PcOutOfBounds` exactly above `MAX_PC_FETCH` (spec/40_frame_cycle.md R72). -/
theorem State.fetchDecode_eq_pcOutOfBounds_iff (s : State) :
    s.fetchDecode = .error (.pcOutOfBounds s.pc) ↔ 4094 < s.pc.toNat := by
  refine ⟨fun hf => ?_, s.fetchDecode_of_gt⟩
  by_contra hle
  rw [s.fetchDecode_of_le (Nat.not_lt.1 hle)] at hf
  exact s.decodeAt_ne_pcOutOfBounds _ _ hf

/-- The only address above `MAX_PC_FETCH` is 0xFFF (spec/41_flow.md R85). -/
theorem lt_toNat_iff_eq_0xFFF (nnn : Imm12) : 4094 < nnn.toNat ↔ nnn = 0xFFF#12 := by
  bv_omega

/-- Settles O31: the target is the address, and only the address 0xFFF lies above the fetch bound. -/
theorem jumpSetsPc : Obligations.JumpSetsPc := by
  intro nnn s
  have hpc : (s.jump (zextAddr nnn)).pc.toNat = nnn.toNat := zextAddr_toNat nnn
  refine ⟨hasRow_jp nnn, _, exec_jp nnn s, hpc, rfl, ?fetch⟩
  case fetch => rw [State.fetchDecode_eq_pcOutOfBounds_iff, hpc, lt_toNat_iff_eq_0xFFF]

/-- Settles O33: the target does not wrap, and is at most 0xFF + 0xFFF. -/
theorem jumpV0AddsOffset : Obligations.JumpV0AddsOffset := by
  intro nnn s
  have hpc : (s.jump (zextByte (s.getV 0x0#4) + zextAddr nnn)).pc.toNat = (s.getV 0x0#4).toNat + nnn.toNat :=
    zextByte_add_zextAddr_toNat _ nnn
  refine ⟨hasRow_jpV0 nnn, _, exec_jpV0 nnn s, hpc, ?bound, rfl, State.fetchDecode_eq_pcOutOfBounds_iff _⟩
  case bound =>
    have hv := (s.getV 0x0#4).isLt
    have hn := nnn.isLt
    omega

end Sys2Proof.Machine
end

section
/-! PROOFS. The skips on an immediate (spec/42_skip.md R90, R91; obligation O35): their words, and the whole state a skip
leaves, under its condition and under the opposite one. -/

namespace Sys2Proof.Machine

/-- The row of SE with an immediate (spec/30_encoding.md R57). -/
theorem hasRow_seImm (x : Nibble) (nn : Byte) : HasRow (.seImm x nn) (formatXnn 0x3#4 x nn) 61 :=
  ⟨by simp [decodeWord, decode], rfl⟩

/-- The row of SNE with an immediate (spec/30_encoding.md R57). -/
theorem hasRow_sneImm (x : Nibble) (nn : Byte) : HasRow (.sneImm x nn) (formatXnn 0x4#4 x nn) 61 :=
  ⟨by simp [decodeWord, decode], rfl⟩

/-- SE with an immediate completes in one skip on equality (spec/42_skip.md R90). -/
theorem exec_seImm (x : Nibble) (nn : Byte) (s : State) :
    exec (.seImm x nn) s = .next (s.skipIf (s.getV x == nn)) := rfl

/-- SNE with an immediate completes in one skip on inequality (spec/42_skip.md R91). -/
theorem exec_sneImm (x : Nibble) (nn : Byte) (s : State) :
    exec (.sneImm x nn) s = .next (s.skipIf (s.getV x != nn)) := rfl

/-- A skip writes `PC` alone (spec/42_skip.md R89). -/
theorem State.skipIf_eq_withPc (s : State) {b : Bool} {c : Prop} [Decidable c] (h : b = true ↔ c) :
    s.skipIf b = { s with pc := if c then s.pc + 4#16 else s.pc + 2#16 } :=
  congrArg (fun a : Word => { s with pc := a }) (s.skipIf_pc_eq_skipTarget h)

/-- A skip on the opposite of a condition: the two targets change places (spec/42_skip.md R89). -/
theorem State.skipIf_eq_withPc_of_not (s : State) {b : Bool} {c : Prop} [Decidable c] (h : b = true ↔ ¬ c) :
    s.skipIf b = { s with pc := if c then s.pc + 2#16 else s.pc + 4#16 } := by
  rw [s.skipIf_eq_withPc h, ite_not]

/-- Settles O35: each instruction is one skip, on equality for SE and on its opposite for SNE. -/
theorem skipsOnImmediate : Obligations.SkipsOnImmediate := by
  intro x nn s
  refine ⟨hasRow_seImm x nn, hasRow_sneImm x nn, ?se, ?sne⟩
  case se => rw [exec_seImm, s.skipIf_eq_withPc beq_iff_eq]
  case sne => rw [exec_sneImm, s.skipIf_eq_withPc_of_not bne_iff_ne]

end Sys2Proof.Machine
end

section
/-! PROOFS. The register operations on an immediate (spec/43_alu.md R96, R97; obligation O37): their words, the result a
register is given, and what writing one result leaves unchanged. -/

namespace Sys2Proof.Machine

/-- The row of LD with an immediate (spec/30_encoding.md R57). -/
theorem hasRow_ldImm (x : Nibble) (nn : Byte) : HasRow (.ldImm x nn) (formatXnn 0x6#4 x nn) 27 :=
  ⟨by simp [decodeWord, decode], rfl⟩

/-- The row of ADD with an immediate (spec/30_encoding.md R57). -/
theorem hasRow_addImm (x : Nibble) (nn : Byte) : HasRow (.addImm x nn) (formatXnn 0x7#4 x nn) 45 :=
  ⟨by simp [decodeWord, decode], rfl⟩

/-- LD with an immediate completes with the byte as its result (spec/43_alu.md R96). -/
theorem exec_ldImm (x : Nibble) (nn : Byte) (s : State) : exec (.ldImm x nn) s = .next (s.setResult x nn) := rfl

/-- ADD with an immediate completes with the sum as its result, and no flag (spec/43_alu.md R97). -/
theorem exec_addImm (x : Nibble) (nn : Byte) (s : State) :
    exec (.addImm x nn) s = .next (s.setResult x (addResult (s.getV x) nn)) := rfl

/-- Addition is 8-bit wraparound (spec/43_alu.md R94). -/
theorem addResult_toNat (a b : Byte) : (addResult a b).toNat = (a.toNat + b.toNat) % 256 := BitVec.toNat_add a b

/-- A register written with a result reads that result. -/
theorem State.getV_setResult_same (s : State) (x : Nibble) (r : Byte) : (s.setResult x r).getV x = r := by
  rw [State.getV_setResult, if_pos rfl]

/-- A result without a flag changes `PC` and its own register alone, `VF` included (spec/43_alu.md R95). -/
theorem State.onlyRegs_setResult (s : State) (x : Nibble) (r : Byte) :
    OnlyRegs (fun k => k = x) s (s.setResult x r) where
  rest := rfl
  regs k hk := by rw [State.getV_setResult, if_neg (Ne.symm hk)]
  memory _ := rfl

/-- Settles O37: each instruction writes one result, the byte for LD and the wrapped sum for ADD. -/
theorem loadAndAddImmediate : Obligations.LoadAndAddImmediate := by
  intro x nn s
  refine ⟨hasRow_ldImm x nn, hasRow_addImm x nn, ⟨_, exec_ldImm x nn s, ?ldValue, rfl, s.onlyRegs_setResult x _⟩,
    ⟨_, exec_addImm x nn s, ?addValue, rfl, s.onlyRegs_setResult x _⟩⟩
  case ldValue => exact s.getV_setResult_same x nn
  case addValue => rw [State.getV_setResult_same, addResult_toNat]

end Sys2Proof.Machine
end

section
/-! PROOFS. CLS (spec/45_display.md R115; obligation O50): its word, the framebuffer it leaves read by bytes and by
pixels, and what it leaves unchanged. -/

namespace Sys2Proof.Machine

/-- The row of CLS (spec/30_encoding.md R57). -/
theorem hasRow_cls : HasRow .cls 0x00E0#16 109 := ⟨rfl, rfl⟩

/-- CLS clears the screen and goes on to the next word (spec/45_display.md R115). -/
theorem exec_cls (s : State) : exec .cls s = .next s.clearScreen.advance := rfl

/-- After CLS every byte of the framebuffer is 0 (spec/45_display.md R115). -/
theorem State.clearScreen_fb_getElem (s : State) {k : Nat} (hk : k < 256) : s.clearScreen.fb[k]'hk = 0#8 :=
  Vector.getElem_replicate hk

/-- A pixel is clear when the byte that holds it is 0 (spec/10_state.md R26). -/
theorem getPixel_of_byte_zero {fb : Framebuffer} {px : Fin 64} {py : Fin 32}
    (h : fb[(pixelByte px py).val]'(pixelByte px py).isLt = 0#8) : getPixel fb px py = false := by
  rw [getPixel, h, BitVec.getLsbD_zero]

/-- Settles O50: every byte of the cleared framebuffer is 0, and so is the bit of every pixel in its byte. -/
theorem clearScreen : Obligations.ClearScreen := by
  refine ⟨hasRow_cls, fun s => ⟨_, exec_cls s, ?bytes, ?pixels, rfl⟩⟩
  case bytes => exact fun _ hk => s.clearScreen_fb_getElem hk
  case pixels => exact fun px py => getPixel_of_byte_zero (s.clearScreen_fb_getElem (pixelByte px py).isLt)

end Sys2Proof.Machine
end

section
/-! PROOFS. The decoder and the encoder (spec/30_encoding.md R52 to R58): the fields of the three formats are all of a
word, the families of the opcode nibble, the two round trips (obligations O1, O2), the invalid words (O3), the sample
words (O5) and the rows of the opcode table (O6). -/

namespace Sys2Proof

/-- A word is its two bytes (spec/20_memory.md R38). -/
theorem wordHi_append_wordLo (w : Word) : wordHi w ++ wordLo w = w := by
  apply BitVec.eq_of_getLsbD_eq
  intro j hj
  rw [BitVec.getLsbD_append, wordHi_bit, wordLo_bit]
  split
  · next h => simp [h]
  · next h => simp [show j - 8 < 8 by omega, show 8 + (j - 8) = j by omega]

/-- A word read as format `NNN` (spec/30_encoding.md R52, R54). -/
theorem formatNnn_fields (w0 w1 : Byte) : formatNnn (hiNib w0) (fieldNnn w0 w1) = w0 ++ w1 := by
  apply BitVec.eq_of_getLsbD_eq
  intro j hj
  rw [formatNnn_bit, fieldNnn_bit, hiNib_bit, loNib_bit, BitVec.getLsbD_append]
  interval_cases j <;> simp

/-- A word read as format `XNN` (spec/30_encoding.md R52, R54). -/
theorem formatXnn_fields (w0 w1 : Byte) : formatXnn (hiNib w0) (loNib w0) w1 = w0 ++ w1 := by
  apply BitVec.eq_of_getLsbD_eq
  intro j hj
  rw [formatXnn_bit, hiNib_bit, loNib_bit, BitVec.getLsbD_append]
  interval_cases j <;> simp

/-- A word read as format `XYN` (spec/30_encoding.md R52, R54). -/
theorem formatXyn_fields (w0 w1 : Byte) :
    formatXyn (hiNib w0) (loNib w0) (hiNib w1) (loNib w1) = w0 ++ w1 := by
  apply BitVec.eq_of_getLsbD_eq
  intro j hj
  rw [formatXyn_bit, hiNib_bit, loNib_bit, hiNib_bit, loNib_bit, BitVec.getLsbD_append]
  interval_cases j <;> simp

/-- The sixteen opcode nibbles. -/
theorem nibble_cases (n : Nibble) :
    n = 0x0#4 ∨ n = 0x1#4 ∨ n = 0x2#4 ∨ n = 0x3#4 ∨ n = 0x4#4 ∨ n = 0x5#4 ∨ n = 0x6#4 ∨ n = 0x7#4 ∨
      n = 0x8#4 ∨ n = 0x9#4 ∨ n = 0xA#4 ∨ n = 0xB#4 ∨ n = 0xC#4 ∨ n = 0xD#4 ∨ n = 0xE#4 ∨ n = 0xF#4 := by
  revert n
  decide

/-- A SYS with a word of its own keeps clear of the words of CLS and RET (spec/30_encoding.md R56). -/
theorem formatNnn_ne_cls_ret {nnn : Imm12} (h : sysAddressOk nnn = true) :
    ¬ (wordHi (formatNnn 0x0#4 nnn) = 0x00#8 ∧
      (wordLo (formatNnn 0x0#4 nnn) = 0xE0#8 ∨ wordLo (formatNnn 0x0#4 nnn) = 0xEE#8)) := by
  rintro ⟨h0, h1⟩
  have hf := fieldNnn_formatNnn 0x0#4 nnn
  rw [h0] at hf
  rcases h1 with h1 | h1 <;> rw [h1] at hf <;> subst hf <;> exact absurd h (by decide)

/-- Settles O1, by the constructors of the instruction: the fields of its format are read back, and the opcode nibble,
then the last nibble or the low byte of families 5, 8, 9, E and F, select its own branch. -/
theorem decodeOfEncode : Obligations.DecodeOfEncode := by
  intro i hwf
  cases i
  case cls | ret => rfl
  case sys nnn =>
    rw [decodeWord, encode, decode_eq_decodeFamily0 (hiNib_formatNnn _ _),
      decodeFamily0_eq_sys (formatNnn_ne_cls_ret hwf), fieldNnn_formatNnn]
  case jp | call | ldI | jpV0 | seImm | sneImm | ldImm | addImm | rnd | seReg | sneReg | drw =>
    simp [encode, decodeWord, decode]
  case ldReg | orReg | andReg | xorReg | addReg | sub | shr | subn | shl =>
    simp [encode, decodeWord, decode, decodeFamily8]
  case skp | sknp => simp [encode, decodeWord, decode, decodeFamilyE]
  case ldVxDt | ldVxK | ldDtVx | ldStVx | addIVx | ldFVx | ldBVx | ldMemVx | ldVxMem =>
    simp [encode, decodeWord, decode, decodeFamilyF]

/-- If `d` is an instruction, it is well-formed and its word is `w0 w1`. -/
def DecodesItself (w0 w1 : Byte) (d : Decoded) : Prop :=
  ∀ i, d = .instr i → i.wellFormed = true ∧ encode i = w0 ++ w1

theorem decodesItself_instr {w0 w1 : Byte} {i : Instr} (hwf : i.wellFormed = true) (he : encode i = w0 ++ w1) :
    DecodesItself w0 w1 (.instr i) := by
  rintro _ ⟨rfl⟩
  exact ⟨hwf, he⟩

theorem decodesItself_invalid {w0 w1 a b : Byte} : DecodesItself w0 w1 (.invalid a b) := by
  rintro _ ⟨⟩

theorem decodesItself_ite {w0 w1 : Byte} {c : Prop} [Decidable c] {d e : Decoded}
    (hd : c → DecodesItself w0 w1 d) (he : ¬ c → DecodesItself w0 w1 e) :
    DecodesItself w0 w1 (if c then d else e) := by
  split
  · next h => exact hd h
  · next h => exact he h

@[simp] theorem wordHi_append (w0 w1 : Byte) : wordHi (w0 ++ w1) = w0 := by
  apply BitVec.eq_of_getLsbD_eq
  intro j hj
  rw [wordHi_bit, BitVec.getLsbD_append]
  simp [hj]

@[simp] theorem wordLo_append (w0 w1 : Byte) : wordLo (w0 ++ w1) = w1 := by
  apply BitVec.eq_of_getLsbD_eq
  intro j hj
  rw [wordLo_bit, BitVec.getLsbD_append]
  simp [hj]

section Fields
variable {w0 w1 : Byte} {op n : Nibble} {nn : Byte}

theorem formatNnn_of_hiNib (hop : hiNib w0 = op) : formatNnn op (fieldNnn w0 w1) = w0 ++ w1 :=
  hop ▸ formatNnn_fields w0 w1

theorem formatXnn_of_hiNib (hop : hiNib w0 = op) : formatXnn op (loNib w0) w1 = w0 ++ w1 :=
  hop ▸ formatXnn_fields w0 w1

theorem formatXnn_of_byte (hop : hiNib w0 = op) (hnn : w1 = nn) : formatXnn op (loNib w0) nn = w0 ++ w1 :=
  hnn ▸ formatXnn_of_hiNib hop

theorem formatXyn_of_nibbles (hop : hiNib w0 = op) (hn : loNib w1 = n) :
    formatXyn op (loNib w0) (hiNib w1) n = w0 ++ w1 :=
  hop ▸ hn ▸ formatXyn_fields w0 w1

/-- The address of a word of family 0 other than CLS and RET is one SYS may have (spec/30_encoding.md R56). -/
theorem sysAddressOk_fieldNnn (hop : hiNib w0 = 0x0#4) (hcls : ¬ (w0 = 0x00#8 ∧ w1 = 0xE0#8))
    (hret : ¬ (w0 = 0x00#8 ∧ w1 = 0xEE#8)) : sysAddressOk (fieldNnn w0 w1) = true := by
  have bytes {nnn : Imm12} (h : fieldNnn w0 w1 = nnn) :
      w0 = wordHi (formatNnn 0x0#4 nnn) ∧ w1 = wordLo (formatNnn 0x0#4 nnn) := by
    rw [← h, formatNnn_of_hiNib hop, wordHi_append, wordLo_append]
    exact ⟨rfl, rfl⟩
  rw [sysAddressOk, Bool.and_eq_true, bne_iff_ne, bne_iff_ne]
  exact ⟨fun h => hcls (bytes h), fun h => hret (bytes h)⟩

theorem decodesItself_family0 (hop : hiNib w0 = 0x0#4) : DecodesItself w0 w1 (decodeFamily0 w0 w1) := by
  refine decodesItself_ite ?cls fun hcls => decodesItself_ite ?ret fun hret => ?sys
  case cls => rintro ⟨rfl, rfl⟩; exact decodesItself_instr rfl rfl
  case ret => rintro ⟨rfl, rfl⟩; exact decodesItself_instr rfl rfl
  case sys => exact decodesItself_instr (sysAddressOk_fieldNnn hop hcls hret) (formatNnn_of_hiNib hop)

theorem decodesItself_family8 (hop : hiNib w0 = 0x8#4) : DecodesItself w0 w1 (decodeFamily8 w0 w1) := by
  unfold decodeFamily8
  split
  case h_10 => exact decodesItself_invalid
  all_goals
    next hn => exact decodesItself_instr rfl (formatXyn_of_nibbles hop hn)

theorem decodesItself_familyE (hop : hiNib w0 = 0xE#4) : DecodesItself w0 w1 (decodeFamilyE w0 w1) := by
  unfold decodeFamilyE
  iterate 2
    refine decodesItself_ite (fun hnn => decodesItself_instr rfl (formatXnn_of_byte hop hnn)) fun _ => ?_
  exact decodesItself_invalid

theorem decodesItself_familyF (hop : hiNib w0 = 0xF#4) : DecodesItself w0 w1 (decodeFamilyF w0 w1) := by
  unfold decodeFamilyF
  iterate 9
    refine decodesItself_ite (fun hnn => decodesItself_instr rfl (formatXnn_of_byte hop hnn)) fun _ => ?_
  exact decodesItself_invalid

/-- What decoding gives, family by family (spec/30_encoding.md R55). -/
inductive DecodeCase (w0 w1 : Byte) : Decoded → Prop
  | family0 (hop : hiNib w0 = 0x0#4) : DecodeCase w0 w1 (decodeFamily0 w0 w1)
  | family8 (hop : hiNib w0 = 0x8#4) : DecodeCase w0 w1 (decodeFamily8 w0 w1)
  | familyE (hop : hiNib w0 = 0xE#4) : DecodeCase w0 w1 (decodeFamilyE w0 w1)
  | familyF (hop : hiNib w0 = 0xF#4) : DecodeCase w0 w1 (decodeFamilyF w0 w1)
  | fixedXy (hop : hiNib w0 = 0x5#4 ∨ hiNib w0 = 0x9#4) (i : Instr) (hwf : i.wellFormed = true)
      (he : encode i = formatXyn (hiNib w0) (loNib w0) (hiNib w1) 0x0#4) :
      DecodeCase w0 w1 (if loNib w1 = 0x0#4 then .instr i else .invalid w0 w1)
  | plain (hop : hiNib w0 ∉ [0x0#4, 0x5#4, 0x8#4, 0x9#4, 0xE#4, 0xF#4]) (i : Instr) (hwf : i.wellFormed = true)
      (he : encode i = w0 ++ w1) : DecodeCase w0 w1 (.instr i)

theorem decodeCase_decode (w0 w1 : Byte) : DecodeCase w0 w1 (decode w0 w1) := by
  rcases nibble_cases (hiNib w0) with h | h | h | h | h | h | h | h | h | h | h | h | h | h | h | h <;>
    simp only [decode, h]
  · exact .family0 h
  iterate 2 exact .plain (by simp [h]) _ rfl (formatNnn_of_hiNib h)
  iterate 2 exact .plain (by simp [h]) _ rfl (formatXnn_of_hiNib h)
  · exact .fixedXy (.inl h) _ rfl (by rw [h, encode])
  iterate 2 exact .plain (by simp [h]) _ rfl (formatXnn_of_hiNib h)
  · exact .family8 h
  · exact .fixedXy (.inr h) _ rfl (by rw [h, encode])
  iterate 2 exact .plain (by simp [h]) _ rfl (formatNnn_of_hiNib h)
  · exact .plain (by simp [h]) _ rfl (formatXnn_of_hiNib h)
  · exact .plain (by simp [h]) _ rfl (formatXyn_of_nibbles h rfl)
  · exact .familyE h
  · exact .familyF h

/-- Decoding drops no bit (spec/30_encoding.md R55). -/
theorem decodesItself_decode (w0 w1 : Byte) : DecodesItself w0 w1 (decode w0 w1) := by
  have hcase := decodeCase_decode w0 w1
  generalize decode w0 w1 = d at hcase ⊢
  cases hcase with
  | family0 hop => exact decodesItself_family0 hop
  | family8 hop => exact decodesItself_family8 hop
  | familyE hop => exact decodesItself_familyE hop
  | familyF hop => exact decodesItself_familyF hop
  | fixedXy hop i hwf he =>
    refine decodesItself_ite (fun hn => decodesItself_instr hwf ?_) fun _ => decodesItself_invalid
    rw [he, formatXyn_of_nibbles rfl hn]
  | plain hop i hwf he => exact decodesItself_instr hwf he

/-- Settles O2: the two bytes of the word decode to an instruction of theirs, and they are the whole word. -/
theorem encodeOfDecode : Obligations.EncodeOfDecode := by
  intro w i hdec
  obtain ⟨hwf, he⟩ := decodesItself_decode (wordHi w) (wordLo w) i hdec
  exact ⟨hwf, he.trans (wordHi_append_wordLo w)⟩

theorem decodeFamily0_ne_invalid (w0 w1 a b : Byte) : decodeFamily0 w0 w1 ≠ .invalid a b := by
  unfold decodeFamily0
  split_ifs <;> exact Decoded.noConfusion

/-- The last nibbles of family 8 that are no instruction (spec/30_encoding.md R58). -/
theorem nibble_mem_invalid8_iff (n : Nibble) :
    n ∈ [0x8#4, 0x9#4, 0xA#4, 0xB#4, 0xC#4, 0xD#4, 0xF#4] ↔
      n ∉ [0x0#4, 0x1#4, 0x2#4, 0x3#4, 0x4#4, 0x5#4, 0x6#4, 0x7#4, 0xE#4] := by
  revert n
  decide

theorem decodeFamily8_eq_invalid {a b : Byte} :
    decodeFamily8 w0 w1 = .invalid a b ↔
      loNib w1 ∈ [0x8#4, 0x9#4, 0xA#4, 0xB#4, 0xC#4, 0xD#4, 0xF#4] ∧ w0 = a ∧ w1 = b := by
  rw [nibble_mem_invalid8_iff]
  unfold decodeFamily8
  split
  case h_10 => simp_all
  all_goals
    next hn => simp [hn]

theorem ite_instr_eq_invalid {c : Prop} [Decidable c] {i : Instr} {d : Decoded} {a b : Byte} :
    (if c then .instr i else d) = .invalid a b ↔ ¬ c ∧ d = .invalid a b := by
  split
  · next h => simp [h]
  · next h => simp [h]

theorem decodeFamilyE_eq_invalid {a b : Byte} :
    decodeFamilyE w0 w1 = .invalid a b ↔ w1 ∉ [0x9E#8, 0xA1#8] ∧ w0 = a ∧ w1 = b := by
  simp only [decodeFamilyE, ite_instr_eq_invalid, Decoded.invalid.injEq, List.mem_cons, List.not_mem_nil,
    or_false, not_or, and_assoc]

theorem decodeFamilyF_eq_invalid {a b : Byte} :
    decodeFamilyF w0 w1 = .invalid a b ↔
      w1 ∉ [0x07#8, 0x0A#8, 0x15#8, 0x18#8, 0x1E#8, 0x29#8, 0x33#8, 0x55#8, 0x65#8] ∧ w0 = a ∧ w1 = b := by
  simp only [decodeFamilyF, ite_instr_eq_invalid, Decoded.invalid.injEq, List.mem_cons, List.not_mem_nil,
    or_false, not_or, and_assoc]

/-- The lines of spec/30_encoding.md R58. -/
def IsInvalidWord (w0 w1 : Byte) : Prop :=
  (hiNib w0 = 0x5#4 ∧ loNib w1 ≠ 0x0#4) ∨
  (hiNib w0 = 0x8#4 ∧ loNib w1 ∈ [0x8#4, 0x9#4, 0xA#4, 0xB#4, 0xC#4, 0xD#4, 0xF#4]) ∨
  (hiNib w0 = 0x9#4 ∧ loNib w1 ≠ 0x0#4) ∨
  (hiNib w0 = 0xE#4 ∧ w1 ∉ [0x9E#8, 0xA1#8]) ∨
  (hiNib w0 = 0xF#4 ∧ w1 ∉ [0x07#8, 0x0A#8, 0x15#8, 0x18#8, 0x1E#8, 0x29#8, 0x33#8, 0x55#8, 0x65#8])

/-- Which words are invalid, and what `Invalid` carries, by the families of the decoder (spec/30_encoding.md R58). -/
theorem decode_eq_invalid {a b : Byte} : decode w0 w1 = .invalid a b ↔ IsInvalidWord w0 w1 ∧ w0 = a ∧ w1 = b := by
  have hcase := decodeCase_decode w0 w1
  unfold IsInvalidWord
  generalize decode w0 w1 = d at hcase ⊢
  cases hcase with
  | family0 hop => simp [hop, decodeFamily0_ne_invalid]
  | family8 hop => rw [decodeFamily8_eq_invalid]; simp [hop]
  | familyE hop => rw [decodeFamilyE_eq_invalid]; simp [hop]
  | familyF hop => rw [decodeFamilyF_eq_invalid]; simp [hop]
  | fixedXy hop i hwf he =>
    rw [ite_instr_eq_invalid, Decoded.invalid.injEq]
    rcases hop with hop | hop <;> simp [hop]
  | plain hop i hwf he =>
    simp only [List.mem_cons, List.not_mem_nil, or_false, not_or] at hop
    simp [hop]

end Fields

/-- Settles O3: the five lines are those of `IsInvalidWord`, and `Invalid` carries the bytes of its word. -/
theorem invalidWordsAreExactly : Obligations.InvalidWordsAreExactly := by
  intro w0 w1
  refine ⟨decode_eq_invalid.trans (and_iff_left ⟨rfl, rfl⟩), fun a b h => ?carries⟩
  case carries =>
    obtain ⟨-, ha, hb⟩ := decode_eq_invalid.1 h
    exact ⟨ha.symm, hb.symm⟩

/-- Settles O5: the decoder is run on the ten words. -/
theorem sampleWordsDecode : Obligations.SampleWordsDecode := by
  unfold Obligations.SampleWordsDecode
  decide

/-- The word of every instruction matches its row (spec/30_encoding.md R57). -/
theorem encode_matches_tableRow : ∀ i, Laws.TableRow.Statement i
  | .cls => Laws.TableRow.cls
  | .ret => Laws.TableRow.ret
  | .sys nnn => Laws.TableRow.sys nnn
  | .jp nnn => Laws.TableRow.jp nnn
  | .call nnn => Laws.TableRow.call nnn
  | .seImm x nn => Laws.TableRow.seImm x nn
  | .sneImm x nn => Laws.TableRow.sneImm x nn
  | .seReg x y => Laws.TableRow.seReg x y
  | .ldImm x nn => Laws.TableRow.ldImm x nn
  | .addImm x nn => Laws.TableRow.addImm x nn
  | .ldReg x y => Laws.TableRow.ldReg x y
  | .orReg x y => Laws.TableRow.orReg x y
  | .andReg x y => Laws.TableRow.andReg x y
  | .xorReg x y => Laws.TableRow.xorReg x y
  | .addReg x y => Laws.TableRow.addReg x y
  | .sub x y => Laws.TableRow.sub x y
  | .shr x y => Laws.TableRow.shr x y
  | .subn x y => Laws.TableRow.subn x y
  | .shl x y => Laws.TableRow.shl x y
  | .sneReg x y => Laws.TableRow.sneReg x y
  | .ldI nnn => Laws.TableRow.ldI nnn
  | .jpV0 nnn => Laws.TableRow.jpV0 nnn
  | .rnd x nn => Laws.TableRow.rnd x nn
  | .drw x y n => Laws.TableRow.drw x y n
  | .skp x => Laws.TableRow.skp x
  | .sknp x => Laws.TableRow.sknp x
  | .ldVxDt x => Laws.TableRow.ldVxDt x
  | .ldVxK x => Laws.TableRow.ldVxK x
  | .ldDtVx x => Laws.TableRow.ldDtVx x
  | .ldStVx x => Laws.TableRow.ldStVx x
  | .addIVx x => Laws.TableRow.addIVx x
  | .ldFVx x => Laws.TableRow.ldFVx x
  | .ldBVx x => Laws.TableRow.ldBVx x
  | .ldMemVx x => Laws.TableRow.ldMemVx x
  | .ldVxMem x => Laws.TableRow.ldVxMem x

section Rows
variable {w m : Word}

/-- A mask of the first nibble selects the opcode nibble. -/
theorem hiNib_of_and_F000 (h : w &&& 0xF000#16 = m) : hiNib (wordHi w) = hiNib (wordHi m) := by
  rw [← h, ← wordHi_append_wordLo w, ← formatNnn_fields, Laws.TableRow.formatNnn_and, hiNib_formatNnn,
    hiNib_formatNnn]

/-- A mask of the first nibble and the low byte selects both. -/
theorem fields_of_and_F0FF (h : w &&& 0xF0FF#16 = m) :
    hiNib (wordHi w) = hiNib (wordHi m) ∧ wordLo w = wordLo m := by
  rw [← h, ← wordHi_append_wordLo w, ← formatXnn_fields, Laws.TableRow.formatXnn_andFixed, hiNib_formatXnn,
    hiNib_formatXnn, wordLo_formatXnn, wordLo_formatXnn]
  exact ⟨rfl, rfl⟩

/-- A mask of the first and the last nibble selects both. -/
theorem fields_of_and_F00F (h : w &&& 0xF00F#16 = m) :
    hiNib (wordHi w) = hiNib (wordHi m) ∧ loNib (wordLo w) = loNib (wordLo m) := by
  rw [← h, ← wordHi_append_wordLo w, ← formatXyn_fields, Laws.TableRow.formatXyn_andFixed, hiNib_formatXyn,
    hiNib_formatXyn, loNibLo_formatXyn, loNibLo_formatXyn]
  exact ⟨rfl, rfl⟩

end Rows

/-- A word that matches a row decodes to an instruction of that row, SYS only beside CLS and RET
(spec/30_encoding.md R57): the mask fixes the nibbles the decoder dispatches on, and with them the branch. -/
theorem decodeWord_of_matches_tableRow (w : Word) (i : Instr) (h : w &&& (tableRow i).1 = (tableRow i).2)
    (hsys : ∀ nnn, i = .sys nnn → w ≠ 0x00E0#16 ∧ w ≠ 0x00EE#16) :
    ∃ j, decodeWord w = .instr j ∧ tableRow j = tableRow i := by
  cases i
  case cls | ret =>
    obtain rfl : w = _ := (BitVec.and_allOnes (x := w)).symm.trans h
    exact ⟨_, rfl, rfl⟩
  case sys nnn =>
    obtain ⟨hcls, hret⟩ := hsys nnn rfl
    refine ⟨.sys (fieldNnn (wordHi w) (wordLo w)), ?_, rfl⟩
    have hop : hiNib (wordHi w) = 0x0#4 := hiNib_of_and_F000 (m := 0x0000#16) h
    rw [decodeWord, decode_eq_decodeFamily0 hop, decodeFamily0_eq_sys]
    rintro ⟨h0, h1 | h1⟩
    · exact hcls (by rw [← wordHi_append_wordLo w, h0, h1]; rfl)
    · exact hret (by rw [← wordHi_append_wordLo w, h0, h1]; rfl)
  case jp | call | seImm | sneImm | ldImm | addImm | ldI | jpV0 | rnd | drw =>
    simp only [tableRow] at h
    rw [decodeWord, decode, hiNib_of_and_F000 h]
    exact ⟨_, rfl, rfl⟩
  case seReg | sneReg | ldReg | orReg | andReg | xorReg | addReg | sub | shr | subn | shl =>
    simp only [tableRow] at h
    obtain ⟨hop, hn⟩ := fields_of_and_F00F h
    simp only [decodeWord, decode, decodeFamily8, hop, hn]
    exact ⟨_, rfl, rfl⟩
  case skp | sknp | ldVxDt | ldVxK | ldDtVx | ldStVx | addIVx | ldFVx | ldBVx | ldMemVx | ldVxMem =>
    simp only [tableRow] at h
    obtain ⟨hop, hnn⟩ := fields_of_and_F0FF h
    rw [decodeWord, decode, hop, hnn]
    exact ⟨_, rfl, rfl⟩

/-- Settles O6: the decoded instruction has the word as its own, and its word matches its row; the other direction
reads the masked fields back. -/
theorem wordSelectsItsRow : Obligations.WordSelectsItsRow := by
  intro w i
  refine ⟨fun hdec => ?row, decodeWord_of_matches_tableRow w i⟩
  case row =>
    obtain ⟨-, he⟩ := encodeOfDecode w i hdec
    rw [← he]
    exact encode_matches_tableRow i

end Sys2Proof
end

section
/-! PROOFS. What every handler does and leaves unchanged: the row of each instruction (spec/30_encoding.md R57), where a
handler stops (obligation O28), which elements of the state it writes (O26), which `V` registers (O27), and the generator
(O44). -/

namespace Sys2Proof.Machine

/-- Each well-formed instruction has its row: its word decodes to it, and its cost is its own
(spec/30_encoding.md R57). -/
theorem hasRow_encode {i : Instr} (hwf : i.wellFormed = true) : HasRow i (encode i) (cost i) :=
  ⟨decodeOfEncode i hwf, rfl⟩

/-- A meaning without a stop completes in the state it names. -/
theorem eq_of_next {t u : State} (h : (.next u : Result) = .next t) : u = t := by
  cases h; rfl

/-- A meaning with a check completes in the state it names, its check passed. -/
theorem eq_of_stopOr {c : Option Fault} {t u : State} (h : stopOr c u = .next t) : u = t :=
  ((stopOr_next c u t).1 h).2

/-- A meaning with a check completes, or ends in the stop its check gives. -/
theorem stopOr_cases (c : Option Fault) (u : State) :
    (∃ t, stopOr c u = .next t) ∨ ∃ f, stopOr c u = .fault f ∧ c = some f := by
  cases c with
  | none => exact .inl ⟨u, rfl⟩
  | some f => exact .inr ⟨f, rfl, rfl⟩

/-- The stops of a return (spec/41_flow.md R84; log entry 14). -/
theorem State.popStop_eq_some {s : State} {f : Fault} (h : s.popStop = some f) :
    f = .stackUnderflow s.pc ∨ f = .stackOverflow s.pc := by
  unfold State.popStop at h
  split_ifs at h
  · exact .inl (Option.some.inj h).symm
  · exact .inr (Option.some.inj h).symm

/-- The stop of a call (spec/41_flow.md R86). -/
theorem State.pushStop_eq_some {s : State} {f : Fault} (h : s.pushStop = some f) : f = .stackOverflow s.pc := by
  unfold State.pushStop at h
  split_ifs at h
  exact (Option.some.inj h).symm

/-- The stop of a range of reads (spec/20_memory.md R45, R47). -/
theorem readRangeStop_eq_some {base n : Nat} {f : Fault} (h : readRangeStop base n = some f) :
    ∃ a, 0xFFF < a ∧ f = .memOutOfBounds a := by
  rw [readRangeStop_eq] at h
  split_ifs at h
  exact ⟨_, lt_max_of_lt_right (by decide), (Option.some.inj h).symm⟩

/-- The stops of a range of writes (spec/20_memory.md R46, R47). -/
theorem writeRangeStop_eq_some {base n : Nat} {f : Fault} (h : writeRangeStop base n = some f) :
    ∃ a, (0xFFF < a ∧ f = .memOutOfBounds a) ∨ (a ≤ 0x04F ∧ f = .fontWrite a) := by
  rw [writeRangeStop_eq] at h
  split_ifs at h with h0 habove hfont
  · exact ⟨_, .inl ⟨lt_max_of_lt_right (by decide), (Option.some.inj h).symm⟩⟩
  · exact ⟨base, .inr ⟨Nat.le_of_lt_succ hfont, (Option.some.inj h).symm⟩⟩

/-- A range of writes that passes its check lies outside the font and inside the 4096 bytes (spec/20_memory.md R46). -/
theorem writeRangeStop_eq_none {base n : Nat} (h : writeRangeStop base n = none) (hn : n ≠ 0) :
    fontSize ≤ base ∧ base + n ≤ memSize := by
  rw [writeRangeStop_eq, if_neg hn] at h
  split_ifs at h with habove hfont
  exact ⟨Nat.not_lt.1 hfont, Nat.not_lt.1 habove⟩

/-- Settles O28: the six instructions with a check end in a stop their check gives, and every other one completes. -/
theorem handlersStopOnlyWhereListed : Obligations.HandlersStopOnlyWhereListed := by
  intro i s
  cases i
  case ret =>
    refine (stopOr_cases s.popStop s.popJump).imp_right ?_
    rintro ⟨f, hf, hstop⟩
    exact ⟨f, hf, .inl ⟨rfl, State.popStop_eq_some hstop⟩⟩
  case call nnn =>
    refine (stopOr_cases s.pushStop _).imp_right ?_
    rintro ⟨f, hf, hstop⟩
    exact ⟨f, hf, .inr (.inl ⟨nnn, rfl, State.pushStop_eq_some hstop⟩)⟩
  case drw x y n =>
    refine (stopOr_cases (readRangeStop _ _) _).imp_right ?_
    rintro ⟨f, hf, hstop⟩
    exact ⟨f, hf, .inr (.inr (.inl ⟨⟨x, y, n, rfl⟩, readRangeStop_eq_some hstop⟩))⟩
  case ldVxMem x =>
    refine (stopOr_cases (readRangeStop _ _) _).imp_right ?_
    rintro ⟨f, hf, hstop⟩
    exact ⟨f, hf, .inr (.inr (.inr (.inl ⟨⟨x, rfl⟩, readRangeStop_eq_some hstop⟩)))⟩
  case ldBVx x =>
    refine (stopOr_cases (writeRangeStop _ _) _).imp_right ?_
    rintro ⟨f, hf, hstop⟩
    exact ⟨f, hf, .inr (.inr (.inr (.inr ⟨.inl ⟨x, rfl⟩, writeRangeStop_eq_some hstop⟩)))⟩
  case ldMemVx x =>
    refine (stopOr_cases (writeRangeStop _ _) _).imp_right ?_
    rintro ⟨f, hf, hstop⟩
    exact ⟨f, hf, .inr (.inr (.inr (.inr ⟨.inr ⟨x, rfl⟩, writeRangeStop_eq_some hstop⟩)))⟩
  all_goals exact .inl ⟨_, rfl⟩

/-- Settles O26, by the constructors of the instruction: each completes in a state that its operations give, and the laws
of the operations say which elements they write. -/
theorem onlyTheirInstructionsWrite : Obligations.OnlyTheirInstructionsWrite := by
  intro i s t h
  cases i
  case ret | call | drw | ldBVx =>
    obtain rfl := eq_of_stopOr h
    simp
  case ldMemVx x =>
    obtain rfl := eq_of_stopOr h
    rw [State.storeRegs_eq]
    simp
  case ldVxMem x =>
    obtain rfl := eq_of_stopOr h
    rw [State.loadRegs_eq]
    simp
  case skp | sknp =>
    obtain rfl := eq_of_next h
    rw [State.afterKeyTest_eq]
    simp
  case ldVxK x =>
    obtain rfl := eq_of_next h
    cases s.lowestKey <;> simp [State.keyWait]
  all_goals
    obtain rfl := eq_of_next h
    simp

/-- A result with a flag changes `PC`, its own register and `VF` alone (spec/43_alu.md R95). -/
theorem State.onlyRegs_setResultFlag (s : State) (x : Nibble) (r : Byte) (c : Bool) :
    OnlyRegs (fun k => k = x ∨ k = vf) s (s.setResultFlag x r c) where
  rest := rfl
  regs k hk := by
    obtain ⟨hx, hf⟩ := not_or.1 hk
    rw [State.getV_setResultFlag, if_neg (Ne.symm hf), if_neg (Ne.symm hx)]
  memory _ := rfl

/-- What a block load leaves in a register: its byte for the first `n`, what was there for the others
(spec/44_index_memory.md R114). -/
theorem State.getV_loadRegs (s : State) {n : Nat} (hn : n ≤ 16) (k : Nibble) :
    (s.loadRegs n).getV k = if k.toNat < n then s.mem.read (s.indexAddr k.toNat) else s.getV k := by
  induction n with
  | zero => rfl
  | succ n ih =>
    rw [State.loadRegs_getV_succ, ih (by omega)]
    have hlast : BitVec.ofNat 4 n = k ↔ k.toNat = n := by
      rw [← BitVec.toNat_inj, BitVec.toNat_ofNat, Nat.mod_eq_of_lt (by omega), eq_comm]
    by_cases hk : k.toNat = n
    · rw [if_pos (hlast.2 hk), if_pos (by omega), hk]
    · rw [if_neg (mt hlast.1 hk)]
      exact if_congr (by omega) rfl rfl

/-- A key wait writes no register but its own (spec/46_timers_keys.md R125). -/
theorem State.getV_keyWait_of_ne (s : State) {x k : Nibble} (o : Option Nat) (hk : k ≠ x) :
    (s.keyWait x o).getV k = s.getV k := by
  cases o with
  | none => rfl
  | some j => exact (s.onlyRegs_setResult x _).regs k hk

/-- Settles O27, by the constructors of the instruction: a register that changed is its destination, `VF` of a flag
instruction or a draw, or one of a block load. -/
theorem onlyNamedRegistersWritten : Obligations.OnlyNamedRegistersWritten := by
  intro i s t h k hk
  cases i
  case ldImm x _ | addImm x _ | ldReg x _ | orReg x _ | andReg x _ | xorReg x _ | ldVxDt x =>
    obtain rfl := eq_of_next h
    exact beq_iff_eq.2 (not_imp_comm.1 ((s.onlyRegs_setResult x _).regs k) hk)
  case rnd x _ =>
    obtain rfl := eq_of_next h
    exact beq_iff_eq.2 (not_imp_comm.1 ((s.advanceRng.onlyRegs_setResult x _).regs k) hk)
  case addReg x _ | sub x _ | shr x _ | subn x _ | shl x _ =>
    obtain rfl := eq_of_next h
    simpa [writesReg] using not_imp_comm.1 ((s.onlyRegs_setResultFlag x _ _).regs k) hk
  case ldVxK x =>
    obtain rfl := eq_of_next h
    exact beq_iff_eq.2 (not_imp_comm.1 (s.getV_keyWait_of_ne _) hk)
  case drw x y n =>
    obtain rfl := eq_of_stopOr h
    refine beq_iff_eq.2 (not_imp_comm.1 (fun hvf => ?_) hk)
    rw [State.advance_getV, State.getV_setDrawing, if_neg (Ne.symm hvf)]
  case ldVxMem x =>
    obtain rfl := eq_of_stopOr h
    refine decide_eq_true (not_imp_comm.1 (fun hgt => ?_) hk)
    have hx := x.isLt
    rw [State.advance_getV, s.getV_loadRegs (by omega), if_neg (by omega)]
  case skp | sknp =>
    obtain rfl := eq_of_next h
    rw [State.afterKeyTest_eq] at hk
    exact absurd rfl hk
  case ldMemVx x =>
    obtain rfl := eq_of_stopOr h
    exact absurd (by simp) hk
  case ret | call | ldBVx =>
    obtain rfl := eq_of_stopOr h
    exact absurd rfl hk
  all_goals
    obtain rfl := eq_of_next h
    exact absurd rfl hk

/-- An instruction other than RND leaves the generator as it is (spec/10_state.md R30). -/
theorem rngState_of_exec_next {i : Instr} {s t : State} (h : exec i s = .next t) (hi : ∀ x nn, i ≠ .rnd x nn) :
    t.rngState = s.rngState := by
  obtain ⟨-, -, -, -, -, -, hrng | ⟨x, nn, rfl⟩, -⟩ := onlyTheirInstructionsWrite i s t h
  · exact hrng
  · exact absurd rfl (hi x nn)

/-- RND completes with one step of the generator and its byte under the mask (spec/43_alu.md R107). -/
theorem exec_rnd (x : Nibble) (nn : Byte) (s : State) :
    exec (.rnd x nn) s = .next (s.advanceRng.setResult x (s.randomByte &&& nn)) := rfl

/-- Settles O44: RND reads and steps the generator, every other instruction leaves it. -/
theorem randomDependsOnGeneratorOnly : Obligations.RandomDependsOnGeneratorOnly := by
  intro i s s' t t' hrng h h'
  by_cases hi : ∃ x nn, i = .rnd x nn
  · obtain ⟨x, nn, rfl⟩ := hi
    obtain rfl := eq_of_next h
    obtain rfl := eq_of_next h'
    refine ⟨by simp [hrng], ?value⟩
    rintro _ _ ⟨rfl, rfl⟩
    rw [State.getV_setResult_same, State.getV_setResult_same, State.randomByte, State.randomByte, hrng]
  · have hne : ∀ x nn, i ≠ .rnd x nn := fun x nn he => hi ⟨x, nn, he⟩
    rw [rngState_of_exec_next h hne, rngState_of_exec_next h' hne]
    exact ⟨hrng, fun x nn he => absurd he (hne x nn)⟩

end Sys2Proof.Machine
end

section
/-! PROOFS. The frame cycle and the transactions (spec/40_frame_cycle.md): the step that runs an instruction (obligation
O7), what a frame start leaves (O12), the refusals (O13), the idle core (O17), frames that run nothing (O19) or a draw
(O20), and the loop as steps of the machine (O21, O22). -/

namespace Sys2Proof.Machine

/-- A handler that completes is charged its cost (spec/40_frame_cycle.md R74, R75). -/
theorem step_of_exec_next {s t : State} {i : Instr} (hact : s.activity = .inFrame) (hb : 0 < s.elapsedBudget)
    (hf : s.fetchDecode = .instr i) (hexec : exec i s = .next t) : step s = .next (t.account (cost i)) := by
  rw [step_of_fetchDecode_instr hact hb hf, hexec, afterExec]

/-- A handler that stops has its stop recorded (spec/40_frame_cycle.md R78). -/
theorem step_of_exec_fault {s : State} {i : Instr} {f : Fault} (hact : s.activity = .inFrame)
    (hb : 0 < s.elapsedBudget) (hf : s.fetchDecode = .instr i) (hexec : exec i s = .fault f) :
    step s = .next (s.recordStop f) := by
  rw [step_of_fetchDecode_instr hact hb hf, hexec, afterExec]

/-- Settles O7: the bytes at `PC` are what is fetched, and the handler's outcome decides the step. -/
theorem stepRunsDecodedInstruction : Obligations.StepRunsDecodedInstruction := by
  intro s i hact hb hpc hdec
  have hf : s.fetchDecode = .instr i := (s.fetchDecode_of_le hpc).trans ((s.decodeAt_eq_instr _ i).2 hdec)
  exact ⟨fun t => step_of_exec_next hact hb hf, fun f => step_of_exec_fault hact hb hf⟩

/-- Settles O12: the step is FRAME_START, which writes no other field. -/
theorem frameStartAddsBudget : Obligations.FrameStartAddsBudget := by
  intro s m rest hact hstop hphase hpend
  exact ⟨_, step_runFrame hact hpend (s.admission_runFrame m hstop hphase), rfl⟩

/-- A transaction that is not admitted is refused (spec/40_frame_cycle.md R66). -/
theorem step_of_admission_some {s : State} {c : HostCall} {rest : List HostCall} {r : Refusal}
    (hact : s.activity = .idle) (hpend : s.pending = c :: rest) (hadm : s.admission c = some r) :
    step s = .refused r := by
  simp only [step_idle s hact, hostStep, hpend, hadm]

/-- Nothing is admitted after a stop (spec/40_frame_cycle.md R78). -/
theorem State.admission_of_stopped {s : State} {f : Fault} (c : HostCall) (hstop : s.stopped = some f) :
    s.admission c = some (.afterStop f) := by
  simp only [State.admission, hstop]

/-- `run_frame` is not admitted before a load (spec/40_frame_cycle.md R66). -/
theorem State.admission_runFrame_created {s : State} (m : Word) (hstop : s.stopped = none)
    (hphase : s.phase = .created) : s.admission (.runFrame m) = some (.runFrameNotAdmitted .created) := by
  simp only [State.admission, hstop, hphase]

/-- `load_program` is not admitted after a load (spec/70_reset_and_hazards.md R145). -/
theorem State.admission_loadProgram_loaded {s : State} (bytes : List Byte) (hstop : s.stopped = none)
    (hphase : s.phase ≠ .created) : s.admission (.loadProgram bytes) = some (.loadProgramNotAdmitted s.phase) := by
  unfold State.admission
  rw [hstop]
  cases hp : s.phase with
  | created => exact absurd hp hphase
  | loaded | running => rfl

/-- Settles O13: each call is refused by what stands against its admission. -/
theorem outOfOrderTransactionsRefused : Obligations.OutOfOrderTransactionsRefused := by
  intro s c rest hact hpend
  refine ⟨fun f hstop => ?stopped, fun m hstop hphase hc => ?early, fun bytes hstop hphase hc => ?late⟩
  case stopped => exact step_of_admission_some hact hpend (State.admission_of_stopped c hstop)
  case early => exact step_of_admission_some hact hpend (hc ▸ State.admission_runFrame_created m hstop hphase)
  case late => exact step_of_admission_some hact hpend (hc ▸ State.admission_loadProgram_loaded bytes hstop hphase)

/-- Settles O17: with no frame in progress and no transaction waiting the step changes nothing. -/
theorem idleCoreKeepsState : Obligations.IdleCoreKeepsState := by
  intro s hact hpend
  simp only [step_idle s hact, hostStep, hpend]

/-- Two steps that go on, as a run of the core. -/
theorem core_run_two {s t u : State} (h : step s = .next t) (h' : step t = .next u) :
    Host.Core.run Sys2Proof.core 2 s = .next u := by
  rw [core_run_succ 1 s t h, core_run_succ 0 t u h', core_run_zero]

/-- One step that goes on, as a run of the core. -/
theorem core_run_one {s t : State} (h : step s = .next t) : Host.Core.run Sys2Proof.core 1 s = .next t := by
  rw [core_run_succ 0 s t h, core_run_zero]

/-- Settles O19: the frame start leaves at most 0 of budget, so the first loop test ends the frame. -/
theorem starvedFrameRunsNothing : Obligations.StarvedFrameRunsNothing := by
  intro s m rest hact hstop hphase hpend hb
  have hstart := step_runFrame hact hpend (s.admission_runFrame m hstop hphase)
  have hspent : ({ s with pending := rest }.frameStart m).elapsedBudget ≤ 0 := by
    simp only [State.frameStart_elapsedBudget, frameBudget_eq]
    omega
  refine ⟨_, core_run_two hstart (step_of_budget_spent rfl hspent), ?frame⟩
  case frame => rw [State.endWith, ← hact]; rfl

/-- A handler touches neither the budget nor the interface of the transactions (spec/10_state.md R29, R31). -/
theorem interface_of_exec_next {i : Instr} {s t : State} (h : exec i s = .next t) :
    t.elapsedBudget = s.elapsedBudget ∧ t.activity = s.activity ∧ t.pending = s.pending := by
  obtain ⟨-, -, -, -, -, -, -, -, -, -, -, hb, -, -, hact, hpend, -⟩ := onlyTheirInstructionsWrite i s t h
  exact ⟨hb, hact, hpend⟩

/-- Settles O20: a draw costs more than a whole frame's budget, so the loop test after it ends the frame. -/
theorem drawEndsTheFrame : Obligations.DrawEndsTheFrame := by
  intro s t x y n hact hpos hle hf hexec
  obtain ⟨hb, hact', -⟩ := interface_of_exec_next hexec
  have hspent : (t.account (cost (.drw x y n))).elapsedBudget ≤ 0 := by
    rw [State.account_elapsedBudget, hb, cost]
    omega
  rw [core_run_two (step_of_exec_next hact hpos hf hexec) (step_of_budget_spent (hact'.trans hact) hspent), ← hb]
  rfl

/-- With fuel above the budget the loop returns, and as many steps as there are turns, and one more, leave its state
with its answer; a turn costs at least 1 and takes no transaction from the queue (spec/40_frame_cycle.md R76, R80). -/
theorem frameLoop_eq_core_run (fuel : Nat) (s : State) (hact : s.activity = .inFrame)
    (hfuel : s.elapsedBudget.toNat < fuel) :
    ∃ t a k, frameLoop fuel s = .next (t, a) ∧ k ≤ s.elapsedBudget.toNat + 1 ∧
      Host.Core.run Sys2Proof.core k s = .next { t with activity := .idle, lastResult := some a } ∧
      t.pending = s.pending := by
  induction fuel generalizing s with
  | zero => exact absurd hfuel (Nat.not_lt_zero _)
  | succ fuel ih =>
    by_cases hb : 0 < s.elapsedBudget
    · cases hf : s.fetchDecode with
      | error e =>
        refine ⟨s, .err e, 1, ?_, by omega, core_run_one (step_of_fetchDecode_error hact hb hf), rfl⟩
        rw [frameLoop, if_pos hb, hf]
      | instr i =>
        cases hexec : exec i s with
        | refused r => exact absurd hexec (exec_not_refused i s r)
        | fault f =>
          refine ⟨{ s with stopped := some f }, .stop f, 1, ?_, by omega,
            core_run_one (step_of_exec_fault hact hb hf hexec), rfl⟩
          rw [frameLoop, if_pos hb, hf]
          simp only [hexec]
        | next u =>
          obtain ⟨hbu, hactu, hpendu⟩ := interface_of_exec_next hexec
          have hcost := cost_pos i
          have hleft : (u.account (cost i)).elapsedBudget = s.elapsedBudget - (cost i : Int) := by
            rw [State.account_elapsedBudget, hbu]
          obtain ⟨t, a, k, hloop, hk, hrun, hpend⟩ := ih (u.account (cost i)) (hactu.trans hact) (by omega)
          refine ⟨t, a, k + 1, ?_, by omega, ?_, hpend.trans hpendu⟩
          · rw [frameLoop, if_pos hb, hf]
            simp only [hexec, hloop]
          · rw [core_run_succ k s _ (step_of_exec_next hact hb hf hexec), hrun]
    · refine ⟨s, .ok, 1, ?_, by omega, core_run_one (step_of_budget_spent hact (Int.not_lt.1 hb)), rfl⟩
      rw [frameLoop, if_neg hb]

/-- Settles O21: the steps are those of the loop, whose turns its budget bounds. -/
theorem frameAlwaysEnds : Obligations.FrameAlwaysEnds := by
  intro s hact
  obtain ⟨t, a, k, -, hk, hrun, hpend⟩ := frameLoop_eq_core_run s.frameFuel s hact (Nat.lt_succ_self _)
  exact ⟨k, _, hk, hrun, rfl, Option.some_ne_none a, hpend⟩

/-- Settles O22: one step starts the frame, and the others are those of the loop. -/
theorem runFrameIsTheSteps : Obligations.RunFrameIsTheSteps := by
  intro s m rest hact hpend hadm
  obtain ⟨t, a, k, hloop, -, hrun, -⟩ :=
    frameLoop_eq_core_run ({ s with pending := rest }.frameStart m).frameFuel _ rfl (Nat.lt_succ_self _)
  have hadm' : { s with pending := rest }.admission (.runFrame m) = none := hadm
  refine ⟨t, a, ?_, k + 1, ?_⟩
  · simp only [runFrame, hadm']
    exact hloop
  · rw [core_run_succ k s _ (step_runFrame hact hpend hadm), hrun]

end Sys2Proof.Machine
end

section
/-! PROOFS. What `create` leaves (spec/70_reset_and_hazards.md R143, obligation O16) and the loader (R144; O14, O15). -/

namespace Sys2Proof.Machine

/-- A register of a fresh machine is 0 (spec/10_state.md R33). -/
theorem State.getV_create (seed : BitVec 64) (k : Nibble) : (State.create seed).getV k = 0#8 :=
  Vector.getElem_replicate k.isLt

/-- Settles O16: the fields are those of `State.create`, and its empty memory reads as FONT or INIT_MEM. -/
theorem createLeavesResetState : Obligations.CreateLeavesResetState := by
  rintro seed _ rfl
  refine ⟨State.getV_create seed, rfl, rfl, rfl, fun k hk => Vector.getElem_replicate hk, rfl, rfl, rfl,
    fun px py => getPixel_of_byte_zero (Vector.getElem_replicate _), rfl, rfl, rfl, fun a ha => ?font,
    fun a ha => ?initMem, rfl, rfl⟩
  case font => exact if_pos ha
  case initMem => exact if_neg (Nat.not_lt.2 ha)

/-- Two memories with the same written byte at an address read alike there. -/
theorem Memory.read_congr {m m' : Memory} {a : Nat} (h : m.find a = m'.find a) : m.read a = m'.read a := by
  rw [Memory.read, Memory.read, h]

/-- A read inside a block of writes gives its byte (spec/70_reset_and_hazards.md R144). -/
theorem Memory.read_writeBytes_inside (m : Memory) (a : Nat) (bs : List Byte) (k : Nat) (hk : k < bs.length) :
    (m.writeBytes a bs).read (a + k) = bs[k] := by
  rw [Memory.read, Memory.find_writeBytes, if_pos ⟨by omega, by omega⟩, Nat.add_sub_cancel_left,
    List.getElem?_eq_getElem hk, Option.getD_some]

/-- A block of writes leaves what lies outside it (spec/70_reset_and_hazards.md R144). -/
theorem Memory.find_writeBytes_outside (m : Memory) (a : Nat) (bs : List Byte) (k : Nat)
    (hk : k < a ∨ a + bs.length ≤ k) : (m.writeBytes a bs).find k = m.find k := by
  rw [Memory.find_writeBytes, if_neg (by omega)]

/-- `load_program` is admitted before a load, where no stop has happened (spec/70_reset_and_hazards.md R145). -/
theorem State.admission_loadProgram {s : State} (bytes : List Byte) (hstop : s.stopped = none)
    (hphase : s.phase = .created) : s.admission (.loadProgram bytes) = none := by
  simp only [State.admission, hstop, hphase]

/-- An admitted `load_program` is done in one step (spec/70_reset_and_hazards.md R144). -/
theorem step_loadProgram {s : State} {bytes : List Byte} {rest : List HostCall} (hact : s.activity = .idle)
    (hpend : s.pending = .loadProgram bytes :: rest) (hadm : s.admission (.loadProgram bytes) = none) :
    step s = .next ({ s with pending := rest }.loadProgram bytes) := by
  simp only [step_idle s hact, hostStep, hpend, hadm, State.begin]

/-- An image that fits is copied (spec/70_reset_and_hazards.md R144). -/
theorem State.loadProgram_of_le (s : State) {bytes : List Byte} (hlen : bytes.length ≤ 3584) :
    s.loadProgram bytes = (s.loadRom bytes).endWith .ok :=
  if_neg (Nat.not_lt.2 hlen)

/-- An image that does not fit changes nothing but the answer (spec/70_reset_and_hazards.md R144). -/
theorem State.loadProgram_of_gt (s : State) {bytes : List Byte} (hlen : 3584 < bytes.length) :
    s.loadProgram bytes = s.endWith (.err (.romTooLarge bytes.length)) :=
  if_pos hlen

/-- Settles O14: the step copies the image as one block of writes. -/
theorem loadProgramPlacesRom : Obligations.LoadProgramPlacesRom := by
  intro s bytes rest hact hstop hphase hpend hlen
  refine ⟨_, step_loadProgram hact hpend (State.admission_loadProgram bytes hstop hphase), ?_⟩
  rw [State.loadProgram_of_le _ hlen]
  refine ⟨fun k hk => ?inside, fun a ha => ?outside, ?frame⟩
  case inside => exact s.mem.read_writeBytes_inside programBase bytes k hk
  case outside => exact Memory.read_congr (s.mem.find_writeBytes_outside programBase bytes a ha)
  case frame => rw [State.endWith, ← hact]; rfl

/-- Settles O15: the step answers and copies nothing. -/
theorem loadProgramTooLong : Obligations.LoadProgramTooLong := by
  intro s bytes rest hact hstop hphase hpend hlen
  rw [step_loadProgram hact hpend (State.admission_loadProgram bytes hstop hphase), State.loadProgram_of_gt _ hlen,
    State.endWith, ← hact]

end Sys2Proof.Machine
end

section
/-! PROOFS. The sound states (`Inv`): `create` leaves one (obligation O24), no step writes the font (O25), every step
keeps them (O23), and after a core error a frame meets it again (O18). The steps are told apart once, in `StepCase`. -/

namespace Sys2Proof.Machine

/-- The lowest budget is not above 0 (spec/10_state.md R29). -/
theorem one_sub_maxCost_le_zero : 1 - (maxCost : Int) ≤ 0 := by
  have hmax : 1 ≤ maxCost := (cost_pos .cls).trans (cost_le_maxCost .cls)
  omega

/-- A fresh state is sound: every field is 0, empty or none (spec/70_reset_and_hazards.md R143). -/
theorem inv_create (seed : BitVec 64) : Inv (State.create seed) where
  memWf := rfl
  fontKept _ _ := rfl
  spLegal := Nat.zero_le _
  stackLegal k hk := by simp [State.create]
  pcLegal := by simp [State.create]
  framePhase := nofun
  stopLast := nofun
  budgetLow := one_sub_maxCost_le_zero
  budgetHigh _ := by simp [State.create]
  budgetSpent _ _ _ := le_refl 0
  errorStays := fun ⟨_, h, _⟩ => nomatch h
  noDebug := nofun

/-- Settles O24: the reset state is a fresh one too. -/
theorem createMeetsInvariant : Obligations.CreateMeetsInvariant := ⟨inv_create, inv_create _⟩

/-- What a step that goes on has done: the three ends of a frame, an instruction, or the start of a transaction. -/
inductive StepCase (s : State) : State → Prop
  | spent (hact : s.activity = .inFrame) (hb : s.elapsedBudget ≤ 0) : StepCase s (s.endWith .ok)
  | failed {e : CoreError} (hact : s.activity = .inFrame) (hb : 0 < s.elapsedBudget)
      (hf : s.fetchDecode = .error e) : StepCase s (s.endWith (.err e))
  | stopped {i : Instr} {f : Fault} (hact : s.activity = .inFrame) (hb : 0 < s.elapsedBudget)
      (hf : s.fetchDecode = .instr i) (hexec : exec i s = .fault f) : StepCase s (s.recordStop f)
  | completed {i : Instr} {t : State} (hact : s.activity = .inFrame) (hb : 0 < s.elapsedBudget)
      (hf : s.fetchDecode = .instr i) (hexec : exec i s = .next t) : StepCase s (t.account (cost i))
  | waited (hact : s.activity = .idle) (hpend : s.pending = []) : StepCase s s
  | began {c : HostCall} {rest : List HostCall} (hact : s.activity = .idle) (hpend : s.pending = c :: rest)
      (hadm : s.admission c = none) : StepCase s ({ s with pending := rest }.begin c)

theorem stepCase_of_step {s t : State} (h : step s = .next t) : StepCase s t := by
  cases hact : s.activity with
  | inFrame =>
    by_cases hb : 0 < s.elapsedBudget
    · cases hf : s.fetchDecode with
      | error e =>
        obtain rfl := eq_of_next ((step_of_fetchDecode_error hact hb hf).symm.trans h)
        exact .failed hact hb hf
      | instr i =>
        cases hexec : exec i s with
        | refused r => exact absurd hexec (exec_not_refused i s r)
        | fault f =>
          obtain rfl := eq_of_next ((step_of_exec_fault hact hb hf hexec).symm.trans h)
          exact .stopped hact hb hf hexec
        | next u =>
          obtain rfl := eq_of_next ((step_of_exec_next hact hb hf hexec).symm.trans h)
          exact .completed hact hb hf hexec
    · obtain rfl := eq_of_next ((step_of_budget_spent hact (Int.not_lt.1 hb)).symm.trans h)
      exact .spent hact (Int.not_lt.1 hb)
  | idle =>
    rw [step_idle s hact, hostStep] at h
    split at h
    · next hpend =>
      obtain rfl := eq_of_next h
      exact .waited hact hpend
    · next c rest hpend =>
      split at h
      · exact nomatch h
      · next hadm =>
        obtain rfl := eq_of_next h
        exact .began hact hpend hadm

/-- What every write outside the font and inside the 4096 bytes keeps. -/
def KeptByWrites (P : Memory → Prop) : Prop :=
  ∀ (m : Memory) (a : Nat) (b : Byte), fontSize ≤ a → a < memSize → P m → P (m.write a b)

section Writes
variable {P : Memory → Prop} {s : State}

theorem KeptByWrites.storeBcd (hP : KeptByWrites P) (hlow : fontSize ≤ s.indexAddr 0)
    (hhigh : s.indexAddr 0 + 3 ≤ memSize) (b : Byte) (hs : P s.mem) : P (s.storeBcd b).mem := by
  have hwrite (k : Nat) (hk : k < 3) (m : Memory) (v : Byte) (hm : P m) : P (m.write (s.indexAddr k) v) :=
    hP m _ v (by simp only [State.indexAddr] at *; omega) (by simp only [State.indexAddr] at *; omega) hm
  rw [State.storeBcd_mem]
  exact hwrite 2 (by decide) _ _ (hwrite 1 (by decide) _ _ (hwrite 0 (by decide) _ _ hs))

theorem KeptByWrites.storeRegs (hP : KeptByWrites P) (hlow : fontSize ≤ s.indexAddr 0) (n : Nat)
    (hhigh : s.indexAddr 0 + n ≤ memSize) (hs : P s.mem) : P (s.storeRegs n).mem := by
  induction n with
  | zero => exact hs
  | succ n ih =>
    rw [State.storeRegs_mem_succ]
    exact hP _ _ _ (by simp only [State.indexAddr] at *; omega) (by simp only [State.indexAddr] at *; omega)
      (ih (by omega))

/-- An instruction writes memory byte by byte, outside the font and inside the 4096 bytes
(spec/20_memory.md R36, R46). -/
theorem KeptByWrites.exec (hP : KeptByWrites P) {i : Instr} {t : State} (h : exec i s = .next t) (hs : P s.mem) :
    P t.mem := by
  obtain ⟨-, -, -, -, -, -, -, hsame | ⟨x, rfl⟩ | ⟨x, rfl⟩, -⟩ := onlyTheirInstructionsWrite i s t h
  · rwa [hsame]
  · obtain ⟨hstop, rfl⟩ := (stopOr_next _ _ _).1 h
    obtain ⟨hlow, hhigh⟩ := writeRangeStop_eq_none hstop (by decide)
    exact hP.storeBcd hlow hhigh _ hs
  · obtain ⟨hstop, rfl⟩ := (stopOr_next _ _ _).1 h
    obtain ⟨hlow, hhigh⟩ := writeRangeStop_eq_none hstop (Nat.succ_ne_zero _)
    exact hP.storeRegs hlow _ hhigh hs

end Writes

/-- The canonical form is kept (log entry 7). -/
theorem keptByWrites_wf : KeptByWrites fun m => m.wf = true := fun m a b _ ha hm => m.wf_write a b ha hm

/-- A font byte is kept (spec/20_memory.md R41). -/
theorem keptByWrites_find_font {a : Nat} (ha : a < fontSize) (o : Option Byte) :
    KeptByWrites fun m => m.find a = o := by
  intro m k b hk _ hm
  rw [Memory.find_write, if_neg (by omega), hm]

/-- No step writes a font byte: the instructions do not, and the image lies above the font
(spec/20_memory.md R41; spec/70_reset_and_hazards.md R144). -/
theorem find_font_of_step {s t : State} (h : step s = .next t) {a : Nat} (ha : a < fontSize) :
    t.mem.find a = s.mem.find a := by
  cases stepCase_of_step h with
  | spent | failed | stopped | waited => rfl
  | @completed i u hact hb hf hexec =>
    have hu : u.mem.find a = s.mem.find a := (keptByWrites_find_font ha _).exec hexec rfl
    exact hu
  | @began c rest hact hpend hadm =>
    cases c with
    | runFrame m => rfl
    | loadProgram bytes =>
      rw [State.begin]
      rcases Nat.lt_or_ge 3584 bytes.length with hlen | hlen
      · rw [State.loadProgram_of_gt _ hlen]; rfl
      · rw [State.loadProgram_of_le _ hlen]
        exact s.mem.find_writeBytes_outside programBase bytes a (.inl (ha.trans (by decide)))

/-- Settles O25: a byte reads alike where it has been written alike. -/
theorem fontBytesNeverChange : Obligations.FontBytesNeverChange :=
  fun _ _ h _ ha => Memory.read_congr (find_font_of_step h ha)

/-- Where an instruction is fetched, `PC` is at most `MAX_PC_FETCH` (spec/40_frame_cycle.md R72). -/
theorem State.pc_le_of_fetchDecode {s : State} {i : Instr} (hf : s.fetchDecode = .instr i) : s.pc.toNat ≤ 4094 := by
  by_contra hgt
  rw [s.fetchDecode_of_gt (Nat.not_le.1 hgt)] at hf
  exact nomatch hf

/-- An instruction other than RET and CALL leaves `SP`; those two keep it legal (spec/10_state.md R23). -/
theorem sp_le_of_exec_next {i : Instr} {s t : State} (h : exec i s = .next t) (hsp : s.sp.toNat ≤ stackDepth) :
    t.sp.toNat ≤ stackDepth := by
  obtain ⟨-, hsame | rfl | ⟨nnn, rfl⟩, -⟩ := onlyTheirInstructionsWrite i s t h
  · rwa [hsame]
  · obtain ⟨hstop, rfl⟩ := (stopOr_next _ _ _).1 h
    rw [State.popJump_sp, s.poppedSp_toNat (s.popStop_eq_none.1 hstop).1]
    omega
  · obtain ⟨hstop, rfl⟩ := (stopOr_next _ _ _).1 h
    have hlt := s.pushStop_eq_none.1 hstop
    rw [State.jump_sp, State.push_sp, BitVec.toNat_add]
    exact (Nat.mod_le _ _).trans hlt

/-- The stack entries are addresses an instruction can push (spec/10_state.md R21). -/
def State.StackLegal (s : State) : Prop := ∀ (k : Nat) (h : k < 16), (s.stack[k]'h).toNat ≤ 0x1000

/-- A push of a legal address keeps the stack legal (spec/41_flow.md R86). -/
theorem State.stackLegal_push {s : State} (hs : s.StackLegal) {a : Word} (ha : a.toNat ≤ 0x1000) :
    (s.push a).StackLegal := by
  intro k hk
  simp only [State.push_stack, Vector.getElem_setIfInBounds]
  split
  · exact ha
  · exact hs k hk

/-- Only CALL writes the stack, and it pushes the address after its own (spec/41_flow.md R86). -/
theorem stackLegal_of_exec_next {i : Instr} {s t : State} (h : exec i s = .next t) (hpc : s.pc.toNat ≤ 4094)
    (hs : s.StackLegal) : t.StackLegal := by
  obtain ⟨hsame | ⟨nnn, rfl⟩, -⟩ := onlyTheirInstructionsWrite i s t h
  · rw [State.StackLegal, hsame]; exact hs
  · obtain rfl := eq_of_stopOr h
    exact State.stackLegal_push hs (by bv_omega)

/-- A skip moves `PC` by at most 4 (spec/42_skip.md R89). -/
theorem skipTarget_toNat_le (s : State) (hpc : s.pc.toNat ≤ 4094) (c : Prop) [Decidable c] :
    (skipTarget s c).toNat ≤ 4098 := by
  unfold skipTarget
  split <;> bv_omega

/-- From an address that can be fetched no instruction takes `PC` above 0x10FE (spec/10_state.md R21). -/
theorem pc_le_of_exec_next {i : Instr} {s t : State} (h : exec i s = .next t) (hpc : s.pc.toNat ≤ 4094)
    (hs : s.StackLegal) : t.pc.toNat ≤ 0x10FE := by
  have hnext := nextPcOfEachInstruction i s t h
  have hskip (c : Prop) [Decidable c] (ht : t.pc = skipTarget s c) : t.pc.toNat ≤ 0x10FE :=
    ht ▸ (skipTarget_toNat_le s hpc c).trans (by decide)
  have hadvance : (s.pc + 2#16).toNat ≤ 0x10FE := by bv_omega
  cases i
  case jp nnn | call nnn => have := nnn.isLt; omega
  case jpV0 nnn => have := nnn.isLt; have := (s.getV 0x0#4).isLt; omega
  case ret =>
    obtain ⟨hlt, htop⟩ := Vector.getElem?_eq_some_iff.1 hnext
    exact htop ▸ (hs _ hlt).trans (by decide)
  case seImm | sneImm | seReg | sneReg | skp | sknp => exact hskip _ hnext
  case ldVxK x =>
    rw [hnext]
    split
    · omega
    · exact hadvance
  all_goals exact hnext ▸ hadvance

/-- Where an instruction is fetched, no core error stands (spec/40_frame_cycle.md R79). -/
theorem Inv.not_fetchFailed {s : State} (hs : Inv s) {i : Instr} (hf : s.fetchDecode = .instr i) :
    ¬ s.fetchFailed := by
  intro hfailed
  obtain ⟨-, -, e, -, he⟩ := hs.errorStays hfailed
  exact nomatch hf.symm.trans he

/-- An answer that is no error of fetch or decode is no core error (spec/40_frame_cycle.md R79). -/
theorem not_fetchFailed_of_lastResult {s : State} {a : Answer} (h : s.lastResult = some a)
    (ha : ∀ e, a = .err e → (∀ w0 w1, e ≠ .invalidOp w0 w1) ∧ ∀ pc, e ≠ .pcOutOfBounds pc) : ¬ s.fetchFailed := by
  rintro ⟨e, he, herr⟩
  obtain ⟨hinv, hpc⟩ := ha e (Option.some.inj (h.symm.trans he))
  rcases herr with ⟨w0, w1, rfl⟩ | ⟨pc, rfl⟩
  · exact hinv w0 w1 rfl
  · exact hpc pc rfl

/-- The loop test that ends a frame leaves a sound state (spec/40_frame_cycle.md R71). -/
theorem Inv.endWith_ok {s : State} (hs : Inv s) (hact : s.activity = .inFrame) (hb : s.elapsedBudget ≤ 0) :
    Inv (s.endWith .ok) :=
  have hok : ¬ (s.endWith .ok).fetchFailed := not_fetchFailed_of_lastResult rfl nofun
  { hs with
    framePhase := nofun
    stopLast := fun f hf => nomatch hf.symm.trans (hs.framePhase hact).2
    budgetHigh := fun _ => hb.trans (by decide)
    budgetSpent := fun _ _ _ => hb
    errorStays := fun h => absurd h hok
    noDebug := nofun }

/-- A failed fetch leaves a sound state: it fails again (spec/40_frame_cycle.md R77, R79). -/
theorem Inv.endWith_err {s : State} (hs : Inv s) {e : CoreError} (hact : s.activity = .inFrame)
    (hb : 0 < s.elapsedBudget) (hf : s.fetchDecode = .error e) : Inv (s.endWith (.err e)) :=
  have hkind := s.fetchDecode_error e hf
  have hfailed : (s.endWith (.err e)).fetchFailed := ⟨e, rfl, hkind⟩
  { hs with
    framePhase := nofun
    stopLast := fun f hstop => nomatch hstop.symm.trans (hs.framePhase hact).2
    budgetHigh := fun h => absurd hfailed h
    budgetSpent := fun _ _ h => absurd hfailed h
    errorStays := fun _ => ⟨(hs.framePhase hact).1, hb, e, rfl, hf⟩
    noDebug := by rcases hkind with ⟨w0, w1, rfl⟩ | ⟨pc, rfl⟩ <;> exact nofun }

/-- A recorded stop leaves a sound state (spec/40_frame_cycle.md R78). -/
theorem Inv.recordStop {s : State} (hs : Inv s) {i : Instr} (hf : s.fetchDecode = .instr i) (f : Fault) :
    Inv (s.recordStop f) :=
  have hstop : ¬ (s.recordStop f).fetchFailed := not_fetchFailed_of_lastResult rfl nofun
  { hs with
    framePhase := nofun
    stopLast := fun _ hg => congrArg (Option.map Answer.stop) hg
    budgetHigh := fun _ => hs.budgetHigh (hs.not_fetchFailed hf)
    budgetSpent := nofun
    errorStays := fun h => absurd h hstop
    noDebug := nofun }

/-- An instruction that completes and is charged leaves a sound state (spec/40_frame_cycle.md R75). -/
theorem Inv.account {s t : State} (hs : Inv s) {i : Instr} (hact : s.activity = .inFrame)
    (hb : 0 < s.elapsedBudget) (hf : s.fetchDecode = .instr i) (hexec : exec i s = .next t) :
    Inv (t.account (cost i)) := by
  have hpc := State.pc_le_of_fetchDecode hf
  have hwf : t.mem.wf = true := keptByWrites_wf.exec hexec hs.memWf
  have hfont (a : Nat) (ha : a < fontSize) : t.mem.find a = none :=
    (keptByWrites_find_font ha _).exec hexec (hs.fontKept a ha)
  have hsp := sp_le_of_exec_next hexec hs.spLegal
  have hstack := stackLegal_of_exec_next hexec hpc hs.stackLegal
  have hnextPc := pc_le_of_exec_next hexec hpc hs.stackLegal
  obtain ⟨-, -, -, -, -, -, -, -, -, -, -, hbudget, hphase, hstop, hact', -, hlast⟩ :=
    onlyTheirInstructionsWrite i s t hexec
  have hnone : s.stopped = none := (hs.framePhase hact).2
  have hok : ¬ (t.account (cost i)).fetchFailed := by
    rw [State.fetchFailed, State.account_lastResult, hlast]
    exact hs.not_fetchFailed hf
  have hlow := cost_le_maxCost i
  have hhigh := hs.budgetHigh (hs.not_fetchFailed hf)
  exact
    { memWf := hwf
      fontKept := hfont
      spLegal := hsp
      stackLegal := hstack
      pcLegal := hnextPc
      framePhase := fun _ => ⟨hphase.trans (hs.framePhase hact).1, hstop.trans hnone⟩
      stopLast := fun f h => nomatch h.symm.trans (hstop.trans hnone)
      budgetLow := by rw [State.account_elapsedBudget, hbudget]; omega
      budgetHigh := fun _ => by rw [State.account_elapsedBudget, hbudget]; omega
      budgetSpent := fun h => nomatch h.symm.trans (hact'.trans hact)
      errorStays := fun h => absurd h hok
      noDebug := fun h => hs.noDebug (hlast.symm.trans h) }

/-- An admitted transaction comes before any stop (spec/40_frame_cycle.md R78). -/
theorem State.stopped_of_admission {s : State} {c : HostCall} (hadm : s.admission c = none) : s.stopped = none := by
  cases hstop : s.stopped with
  | none => rfl
  | some f => exact nomatch (State.admission_of_stopped c hstop).symm.trans hadm

/-- An admitted `load_program` comes before any load (spec/70_reset_and_hazards.md R145). -/
theorem State.phase_of_admission_loadProgram {s : State} {bytes : List Byte}
    (hadm : s.admission (.loadProgram bytes) = none) : s.phase = .created := by
  by_contra hphase
  exact nomatch (State.admission_loadProgram_loaded bytes (State.stopped_of_admission hadm) hphase).symm.trans hadm

/-- Before a load no core error of a frame stands (spec/40_frame_cycle.md R79). -/
theorem Inv.not_fetchFailed_of_created {s : State} (hs : Inv s) (hphase : s.phase = .created) : ¬ s.fetchFailed :=
  fun hfailed => nomatch hphase.symm.trans (hs.errorStays hfailed).1

/-- The queue of transactions is no part of soundness (log entry 2). -/
theorem Inv.withPending {s : State} (hs : Inv s) (rest : List HostCall) : Inv { s with pending := rest } :=
  { hs with memWf := hs.memWf }

/-- A refused image leaves a sound state (spec/70_reset_and_hazards.md R144). -/
theorem Inv.endWith_romTooLarge {s : State} (hs : Inv s) (hact : s.activity = .idle) (hstop : s.stopped = none)
    (hphase : s.phase = .created) (size : Nat) : Inv (s.endWith (.err (.romTooLarge size))) :=
  have hold := hs.not_fetchFailed_of_created hphase
  have hnew : ¬ (s.endWith (.err (.romTooLarge size))).fetchFailed :=
    not_fetchFailed_of_lastResult rfl (by rintro _ ⟨⟩; exact ⟨nofun, nofun⟩)
  { hs with
    framePhase := nofun
    stopLast := fun f hf => nomatch hf.symm.trans hstop
    budgetHigh := fun _ => hs.budgetHigh hold
    budgetSpent := fun _ _ _ => hs.budgetSpent hact hstop hold
    errorStays := fun h => absurd h hnew
    noDebug := nofun }

/-- A copied image leaves a sound state: it lies above the font and below 0x1000
(spec/70_reset_and_hazards.md R144). -/
theorem Inv.loadRom {s : State} (hs : Inv s) (hact : s.activity = .idle) (hstop : s.stopped = none)
    (hphase : s.phase = .created) {bytes : List Byte} (hlen : bytes.length ≤ 3584) :
    Inv ((s.loadRom bytes).endWith .ok) :=
  have hold := hs.not_fetchFailed_of_created hphase
  have hnew : ¬ ((s.loadRom bytes).endWith .ok).fetchFailed := not_fetchFailed_of_lastResult rfl nofun
  { hs with
    memWf := s.mem.wf_writeBytes bytes programBase (by simp only [programBase_eq, memSize_eq]; omega) hs.memWf
    fontKept := fun a ha => (s.mem.find_writeBytes_outside programBase bytes a (.inl (ha.trans (by decide)))).trans
      (hs.fontKept a ha)
    framePhase := nofun
    stopLast := fun f hf => nomatch hf.symm.trans hstop
    budgetHigh := fun _ => hs.budgetHigh hold
    budgetSpent := fun _ _ _ => hs.budgetSpent hact hstop hold
    errorStays := fun h => absurd h hnew
    noDebug := nofun }

/-- A frame start leaves a sound state: the last frame has spent its budget, or has met a core error that stands
(spec/40_frame_cycle.md R70, R79). -/
theorem Inv.frameStart {s : State} (hs : Inv s) (hact : s.activity = .idle) (hstop : s.stopped = none) (m : Word) :
    Inv (s.frameStart m) :=
  have hbudget : s.elapsedBudget ≤ (s.frameStart m).elapsedBudget := by
    rw [State.frameStart_elapsedBudget, frameBudget_eq]; omega
  { hs with
    framePhase := fun _ => ⟨rfl, hstop⟩
    stopLast := fun f hf => nomatch hf.symm.trans hstop
    budgetLow := hs.budgetLow.trans hbudget
    budgetHigh := fun h => Int.add_le_of_le_sub_right ((hs.budgetSpent hact hstop h).trans (by decide))
    budgetSpent := nofun
    errorStays := fun h =>
      have ⟨_, hpos, he⟩ := hs.errorStays h
      ⟨rfl, hpos.trans_le hbudget, he⟩ }

/-- An admitted transaction begins in a sound state (spec/40_frame_cycle.md R66; spec/70_reset_and_hazards.md R144). -/
theorem Inv.begin {s : State} (hs : Inv s) {c : HostCall} (hact : s.activity = .idle) (hadm : s.admission c = none) :
    Inv (s.begin c) := by
  have hstop := State.stopped_of_admission hadm
  cases c with
  | runFrame m => exact hs.frameStart hact hstop m
  | loadProgram bytes =>
    have hphase := State.phase_of_admission_loadProgram hadm
    rw [State.begin]
    rcases Nat.lt_or_ge 3584 bytes.length with hlen | hlen
    · rw [s.loadProgram_of_gt hlen]
      exact hs.endWith_romTooLarge hact hstop hphase _
    · rw [s.loadProgram_of_le hlen]
      exact hs.loadRom hact hstop hphase hlen

/-- Settles O23, by what the step has done. -/
theorem stepKeepsInvariant : Obligations.StepKeepsInvariant := by
  intro s t hs h
  cases stepCase_of_step h with
  | spent hact hb => exact hs.endWith_ok hact hb
  | failed hact hb hf => exact hs.endWith_err hact hb hf
  | stopped hact hb hf hexec => exact hs.recordStop hf _
  | completed hact hb hf hexec => exact hs.account hact hb hf hexec
  | waited hact hpend => exact hs
  | began hact hpend hadm => exact (hs.withPending _).begin hact hadm

/-- Settles O18: the error stands, so the frame is admitted, starts, and ends at its first fetch. -/
theorem coreErrorRepeats : Obligations.CoreErrorRepeats := by
  intro s m rest hs hfailed hact hpend
  obtain ⟨hphase, hpos, e, hlast, hf⟩ := hs.errorStays hfailed
  have hstop : s.stopped = none := by
    cases hst : s.stopped with
    | none => rfl
    | some f => exact nomatch hlast.symm.trans (hs.stopLast f hst)
  have hadm := s.admission_runFrame m hstop (hphase ▸ nofun)
  have hbudget : 0 < ({ s with pending := rest }.frameStart m).elapsedBudget := Int.add_pos hpos (by decide)
  have hf' : ({ s with pending := rest }.frameStart m).fetchDecode = .error e :=
    (State.fetchDecode_congr s _ rfl rfl).trans hf
  refine ⟨_, core_run_two (step_runFrame hact hpend hadm) (step_of_fetchDecode_error rfl hbudget hf'), ?frame⟩
  case frame =>
    rw [State.endWith, ← hact, ← hlast, State.frameStart, ← hphase]
    rfl

end Sys2Proof.Machine
end

section
/-! PROOFS. Control transfer (spec/41_flow.md): RET (obligation O30), CALL (O32), SYS (O34), and the skips on registers
(spec/42_skip.md; O36). -/

namespace Sys2Proof.Machine

/-- RET stops by its check, or pops (spec/41_flow.md R84). -/
theorem exec_ret (s : State) : exec .ret s = stopOr s.popStop s.popJump := rfl

/-- CALL stops by its check, or pushes and jumps (spec/41_flow.md R86). -/
theorem exec_call (nnn : Imm12) (s : State) :
    exec (.call nnn) s = stopOr s.pushStop ((s.push (s.pc + 2#16)).jump (zextAddr nnn)) := rfl

/-- A meaning whose check passes completes. -/
theorem stopOr_of_none {c : Option Fault} (u : State) (h : c = none) : stopOr c u = .next u :=
  (stopOr_next c u u).2 ⟨h, rfl⟩

/-- A meaning whose check fails stops. -/
theorem stopOr_of_some {c : Option Fault} {f : Fault} (u : State) (h : c = some f) : stopOr c u = .fault f :=
  (stopOr_fault c u f).2 h

/-- Settles O30, by the two sides of the check: with 1 to 16 entries the popped one is there. -/
theorem returnPopsStack : Obligations.ReturnPopsStack := by
  refine ⟨hasRow_encode rfl, fun s => ⟨fun hsp => ?underflow, fun hpos hle => ?pops⟩⟩
  case underflow =>
    have hstop : s.popStop = some (.stackUnderflow s.pc) := if_pos hsp
    rw [exec_ret, stopOr_of_some _ hstop]
  case pops =>
    have hsp : s.poppedSp = BitVec.ofNat 8 (s.sp.toNat - 1) := by
      rw [← s.poppedSp_toNat hpos, BitVec.ofNat_toNat, BitVec.setWidth_eq]
    rw [exec_ret, stopOr_of_none _ (s.popStop_eq_none.2 ⟨hpos, hle⟩), State.popJump, hsp, s.topOfStack_eq hpos hle]

/-- A zero-extended address is its number as a word (spec/30_encoding.md R53). -/
theorem zextAddr_eq_ofNat (nnn : Imm12) : zextAddr nnn = BitVec.ofNat 16 nnn.toNat := by
  rw [← zextAddr_toNat, BitVec.ofNat_toNat, BitVec.setWidth_eq]

/-- Settles O32, by the two sides of the check: below 16 the entry to write is there. -/
theorem callPushesReturnAddress : Obligations.CallPushesReturnAddress := by
  intro nnn s
  refine ⟨hasRow_encode rfl, fun hsp => ?overflow, fun hlt => ?pushes⟩
  case overflow =>
    have hstop : s.pushStop = some (.stackOverflow s.pc) := if_pos (by rw [hsp]; decide)
    rw [exec_call, stopOr_of_some _ hstop]
  case pushes =>
    have hsp : s.sp + 1#8 = BitVec.ofNat 8 (s.sp.toNat + 1) := by bv_omega
    have hstack : s.stack.setIfInBounds s.sp.toNat (s.pc + 2#16) = s.stack.set s.sp.toNat (s.pc + 2#16) hlt := by
      ext k hk
      rw [Vector.getElem_setIfInBounds, Vector.getElem_set]
    rw [exec_call, stopOr_of_none _ (s.pushStop_eq_none.2 hlt), State.push, hsp, zextAddr_eq_ofNat, hstack, State.jump]

/-- Settles O34: SYS is `State.advance`, and every address but those of CLS and RET is one SYS may have. -/
theorem sysIsNoOp : Obligations.SysIsNoOp := by
  intro nnn s
  refine ⟨fun hcls hret => hasRow_encode (i := .sys nnn) ?_, rfl⟩
  rw [Instr.wellFormed, sysAddressOk, Bool.and_eq_true, bne_iff_ne, bne_iff_ne]
  exact ⟨hcls, hret⟩

/-- SE of registers completes in one skip on equality (spec/42_skip.md R92). -/
theorem exec_seReg (x y : Nibble) (s : State) :
    exec (.seReg x y) s = .next (s.skipIf (s.getV x == s.getV y)) := rfl

/-- SNE of registers completes in one skip on inequality (spec/42_skip.md R93). -/
theorem exec_sneReg (x y : Nibble) (s : State) :
    exec (.sneReg x y) s = .next (s.skipIf (s.getV x != s.getV y)) := rfl

/-- Settles O36: each instruction is one skip, and a register is equal to itself. -/
theorem skipsOnRegisters : Obligations.SkipsOnRegisters := by
  intro x y s
  have hse := s.skipIf_eq_withPc (b := s.getV x == s.getV y) beq_iff_eq
  have hsne := s.skipIf_eq_withPc_of_not (b := s.getV x != s.getV y) bne_iff_ne
  refine ⟨hasRow_encode rfl, hasRow_encode rfl, by rw [exec_seReg, hse], by rw [exec_sneReg, hsne], ?same⟩
  case same =>
    rintro rfl
    rw [exec_seReg, exec_sneReg, hse, hsne, if_pos rfl, if_pos rfl]
    exact ⟨rfl, rfl⟩

end Sys2Proof.Machine
end

section
/-! PROOFS. Register arithmetic (spec/43_alu.md): the flag comparisons (obligation O42), LD and the logic instructions
(O38), ADD with carry (O39), SUB and SUBN (O40), the shifts (O41) and RND (O43). -/

namespace Sys2Proof.Machine

/-- The carry is set exactly where the sum exceeds 255 (spec/43_alu.md R94). -/
theorem addCarry_iff (a b : Byte) : addCarry a b = true ↔ 255 < a.toNat + b.toNat := by
  have ha := a.isLt
  have hb := b.isLt
  rw [addCarry, decide_eq_true_iff, addResult_toNat]
  omega

/-- The carry is set exactly where the result is below the operand (spec/43_alu.md R94). -/
theorem addCarry_iff_result_lt (a b : Byte) : addCarry a b = true ↔ (addResult a b).toNat < a.toNat := by
  have ha := a.isLt
  have hb := b.isLt
  rw [addCarry_iff, addResult_toNat]
  omega

/-- Subtraction is 8-bit wraparound (spec/43_alu.md R94). -/
theorem subResult_toNat (a b : Byte) : (subResult a b).toNat = (256 - b.toNat + a.toNat) % 256 := BitVec.toNat_sub a b

/-- The result of a subtraction as an integer (spec/43_alu.md R94). -/
theorem subResult_toNat_int (a b : Byte) : ((subResult a b).toNat : Int) = ((a.toNat : Int) - b.toNat) % 256 := by
  have hb := b.isLt
  rw [subResult_toNat]
  omega

/-- The borrow is set exactly where the operand is the smaller (spec/43_alu.md R94). -/
theorem subBorrow_iff (a b : Byte) : subBorrow a b = true ↔ a.toNat < b.toNat := by
  have ha := a.isLt
  have hb := b.isLt
  rw [subBorrow, decide_eq_true_iff, subResult_toNat]
  omega

/-- Settles O42. -/
theorem flagComparisonsAgree : Obligations.FlagComparisonsAgree :=
  fun a b => ⟨addCarry_iff a b, addCarry_iff_result_lt a b, subBorrow_iff a b⟩

/-- Settles O38: each instruction writes one result and no flag. -/
theorem loadAndLogicRegisters : Obligations.LoadAndLogicRegisters := by
  intro x y s
  have hresult (r : Byte) : ∃ t, (.next (s.setResult x r) : Result) = .next t ∧ t.getV x = r ∧ t.pc = s.pc + 2#16 ∧
      OnlyRegs (fun k => k = x) s t :=
    ⟨_, rfl, s.getV_setResult_same x r, rfl, s.onlyRegs_setResult x r⟩
  exact ⟨hasRow_encode rfl, hasRow_encode rfl, hasRow_encode rfl, hasRow_encode rfl, hresult _, hresult _, hresult _,
    hresult _⟩

/-- A flag instruction leaves its result in its register, unless that is `VF` (spec/43_alu.md R95). -/
theorem State.getV_setResultFlag_same (s : State) {x : Nibble} (hx : x ≠ vf) (r : Byte) (c : Bool) :
    (s.setResultFlag x r c).getV x = r := by
  rw [State.getV_setResultFlag, if_neg (Ne.symm hx), if_pos rfl]

/-- A flag instruction leaves its flag in `VF`, whatever its register (spec/43_alu.md R95). -/
theorem State.getV_setResultFlag_vf (s : State) (x : Nibble) (r : Byte) (c : Bool) :
    (s.setResultFlag x r c).getV vf = flagByte c := by
  rw [State.getV_setResultFlag, if_pos rfl]

/-- What a flag that stands for a condition is as a byte, where the condition holds and where it does not. -/
theorem flagByte_of_pos {c : Bool} {p : Prop} (hc : c = true ↔ p) (hp : p) : flagByte c = 1#8 := if_pos (hc.2 hp)

theorem flagByte_of_neg {c : Bool} {p : Prop} (hc : c = true ↔ p) (hp : ¬ p) : flagByte c = 0#8 :=
  if_neg (mt hc.1 hp)

/-- NOT borrow is set exactly where nothing is borrowed (spec/43_alu.md R94). -/
theorem not_subBorrow_iff (a b : Byte) : (!subBorrow a b) = true ↔ b.toNat ≤ a.toNat := by
  rw [Bool.not_eq_true', ← Bool.not_eq_true, subBorrow_iff, Nat.not_lt]

/-- Settles O39: the result is the wrapped sum, the flag the carry. -/
theorem addWithCarry : Obligations.AddWithCarry := by
  intro x y s
  have hcarry := addCarry_iff (s.getV x) (s.getV y)
  refine ⟨hasRow_encode rfl, _, rfl, fun hx => ?value, fun hgt => ?carry, fun hle => ?noCarry, rfl,
    s.onlyRegs_setResultFlag x _ _⟩
  case value => rw [s.getV_setResultFlag_same hx, addResult_toNat]
  case carry => exact (s.getV_setResultFlag_vf x _ _).trans (flagByte_of_pos hcarry hgt)
  case noCarry => exact (s.getV_setResultFlag_vf x _ _).trans (flagByte_of_neg hcarry (Nat.not_lt.2 hle))

/-- A subtraction written to `V[x]` with NOT borrow in `VF` (spec/43_alu.md R94, R95). -/
theorem State.setResultFlag_sub (s : State) (x : Nibble) (a b : Byte) :
    ∃ t, (.next (s.setResultFlag x (subResult a b) (!subBorrow a b)) : Result) = .next t ∧
      (x ≠ 0xF#4 → ((t.getV x).toNat : Int) = ((a.toNat : Int) - b.toNat) % 256) ∧
      (b.toNat ≤ a.toNat → t.getV 0xF#4 = 1#8) ∧ (a.toNat < b.toNat → t.getV 0xF#4 = 0#8) ∧
      t.pc = s.pc + 2#16 ∧ OnlyRegs (fun k => k = x ∨ k = 0xF#4) s t := by
  have hflag := not_subBorrow_iff a b
  refine ⟨_, rfl, fun hx => ?value, fun hle => ?noBorrow, fun hlt => ?borrow, rfl, s.onlyRegs_setResultFlag x _ _⟩
  case value => rw [s.getV_setResultFlag_same hx, subResult_toNat_int]
  case noBorrow => exact (s.getV_setResultFlag_vf x _ _).trans (flagByte_of_pos hflag hle)
  case borrow => exact (s.getV_setResultFlag_vf x _ _).trans (flagByte_of_neg hflag (Nat.not_le.2 hlt))

/-- Settles O40: the two instructions subtract the same registers, each in its own order. -/
theorem subtractWithNotBorrow : Obligations.SubtractWithNotBorrow := fun x y s =>
  ⟨hasRow_encode rfl, hasRow_encode rfl, s.setResultFlag_sub x (s.getV x) (s.getV y),
    s.setResultFlag_sub x (s.getV y) (s.getV x)⟩

/-- The source of a shift is the register the parameter names (spec/43_alu.md R104; D10). -/
theorem State.shiftOperand_eq {s : State} {x y : Nibble} {src : Byte} (hx : Config.shiftSrc = .x → src = s.getV x)
    (hy : Config.shiftSrc = .y → src = s.getV y) : s.shiftOperand x y = src := by
  unfold State.shiftOperand
  split
  · next h => exact (hx h).symm
  · next h => exact (hy h).symm

/-- A right shift halves (spec/43_alu.md R104). -/
theorem shrResult_toNat (b : Byte) : (shrResult b).toNat = b.toNat / 2 := by
  rw [shrResult, BitVec.toNat_ushiftRight, Nat.shiftRight_one]

/-- A left shift doubles, with 8-bit wraparound (spec/43_alu.md R106). -/
theorem shlResult_toNat (b : Byte) : (shlResult b).toNat = b.toNat * 2 % 256 := by
  rw [shlResult, BitVec.toNat_shiftLeft, Nat.shiftLeft_eq, pow_one]

/-- A bit as a flag byte is the bit as a number. -/
theorem flagByte_getLsbD_toNat (b : Byte) (k : Nat) : (flagByte (b.getLsbD k)).toNat = b.toNat / 2 ^ k % 2 := by
  rw [BitVec.getLsbD, Nat.testBit_eq_decide_div_mod_eq]
  rcases Nat.mod_two_eq_zero_or_one (b.toNat / 2 ^ k) with h | h <;> simp [flagByte, h]

/-- The bit shifted out to the right is the remainder by 2 (spec/43_alu.md R104). -/
theorem flagByte_shrOut_toNat (b : Byte) : (flagByte (shrOut b)).toNat = b.toNat % 2 := by
  rw [shrOut, flagByte_getLsbD_toNat, pow_zero, Nat.div_one]

/-- The bit shifted out to the left is the quotient by 128 (spec/43_alu.md R106). -/
theorem flagByte_shlOut_toNat (b : Byte) : (flagByte (shlOut b)).toNat = b.toNat / 128 := by
  have hb := b.isLt
  rw [shlOut, flagByte_getLsbD_toNat]
  omega

/-- Settles O41: both instructions shift the operand SHIFT_SRC names. -/
theorem shiftsByOne : Obligations.ShiftsByOne := by
  intro x y s src hx hy
  obtain rfl := State.shiftOperand_eq hx hy
  refine ⟨hasRow_encode rfl, hasRow_encode rfl,
    ⟨_, rfl, fun hne => ?shrValue, ?shrFlag, rfl, s.onlyRegs_setResultFlag x _ _⟩,
    ⟨_, rfl, fun hne => ?shlValue, ?shlFlag, rfl, s.onlyRegs_setResultFlag x _ _⟩⟩
  case shrValue => rw [s.getV_setResultFlag_same hne, shrResult_toNat]
  case shrFlag => exact (congrArg BitVec.toNat (s.getV_setResultFlag_vf x _ _)).trans (flagByte_shrOut_toNat _)
  case shlValue => rw [s.getV_setResultFlag_same hne, shlResult_toNat]
  case shlFlag => exact (congrArg BitVec.toNat (s.getV_setResultFlag_vf x _ _)).trans (flagByte_shlOut_toNat _)

/-- Settles O43: RND writes the masked byte after one step of the generator. -/
theorem randomByteUnderMask : Obligations.RandomByteUnderMask := by
  intro x nn s
  have hvalue := s.advanceRng.getV_setResult_same x (s.randomByte &&& nn)
  refine ⟨hasRow_encode rfl, _, exec_rnd x nn s, hvalue, rfl, fun hzero => ?zeroMask, rfl, rfl,
    fun k hk => ?others, fun _ => rfl⟩
  case zeroMask => rw [hvalue, hzero, BitVec.and_zero]
  case others => exact (s.advanceRng.onlyRegs_setResult x _).regs k hk

end Sys2Proof.Machine
end

section
/-! PROOFS. The index register and memory (spec/44_index_memory.md): LD I and ADD I (obligation O45), LD F (O46), LD B
(O47), the block store (O48) and the block load (O49). -/

namespace Sys2Proof.Machine

/-- LD I completes with the address in `I` (spec/44_index_memory.md R109). -/
theorem exec_ldI (nnn : Imm12) (s : State) : exec (.ldI nnn) s = .next (s.setI (zextAddr nnn)).advance := rfl

/-- Settles O45: each instruction is one write of `I`, which wraps at 16 bits. -/
theorem indexLoadAndAdd : Obligations.IndexLoadAndAdd := by
  intro s
  refine ⟨fun nnn => ⟨hasRow_encode rfl, ?load⟩, fun x => ⟨hasRow_encode rfl, _, rfl, ?sum, rfl⟩⟩
  case load => rw [exec_ldI, zextAddr_eq_ofNat, State.setI, State.advance]
  case sum => rw [State.advance_i, State.setI_i, BitVec.toNat_add, zextByte_toNat]

/-- Five times a byte does not wrap (spec/44_index_memory.md R111). -/
theorem fontBase_add_mul_toNat (b : Byte) : (fontBase + zextByte b * 5#16).toNat = 5 * b.toNat := by
  have hb := b.isLt
  rw [fontBase_eq, BitVec.zero_add, BitVec.toNat_mul, zextByte_toNat, BitVec.toNat_ofNat,
    Nat.mod_eq_of_lt (by omega)]
  omega

/-- Settles O46: the product is at most five times 255. -/
theorem fontGlyphAddress : Obligations.FontGlyphAddress := by
  intro x s
  have hi : (s.setI (fontBase + zextByte (s.getV x) * 5#16)).advance.i.toNat = 5 * (s.getV x).toNat :=
    fontBase_add_mul_toNat (s.getV x)
  refine ⟨hasRow_encode rfl, _, rfl, hi, ?bound, rfl⟩
  case bound =>
    have hv := (s.getV x).isLt
    omega

/-- LD B stops by its check, or stores the three digits (spec/44_index_memory.md R112). -/
theorem exec_ldBVx (x : Nibble) (s : State) :
    exec (.ldBVx x) s = stopOr (writeRangeStop (s.indexAddr 0) 3) (s.storeBcd (s.getV x)).advance := rfl

/-- LD [I], Vx stops by its check, or stores the registers (spec/44_index_memory.md R113). -/
theorem exec_ldMemVx (x : Nibble) (s : State) :
    exec (.ldMemVx x) s =
      stopOr (writeRangeStop (s.indexAddr 0) (x.toNat + 1)) (s.storeRegs (x.toNat + 1)).advance := rfl

/-- LD Vx, [I] stops by its check, or loads the registers (spec/44_index_memory.md R114). -/
theorem exec_ldVxMem (x : Nibble) (s : State) :
    exec (.ldVxMem x) s =
      stopOr (readRangeStop (s.indexAddr 0) (x.toNat + 1)) (s.loadRegs (x.toNat + 1)).advance := rfl

section Checks
variable {s : State} {n : Nat}

/-- The check of the bytes at `I` to `I + n` passes outside the font and up to 0xFFF (spec/20_memory.md R46, R47). -/
theorem State.writeRangeStop_of_inside (hlow : 0x050 ≤ s.indexAddr 0) (hhigh : s.indexAddr n ≤ 0xFFF) :
    writeRangeStop (s.indexAddr 0) (n + 1) = none :=
  writeRangeStop_inside _ _ hlow (by simp only [State.indexAddr, memSize_eq] at *; omega)

/-- With an address above 0xFFF it stops at the lowest such address (spec/20_memory.md R47; D4). -/
theorem State.writeRangeStop_of_above (hhigh : 0xFFF < s.indexAddr n) :
    writeRangeStop (s.indexAddr 0) (n + 1) = some (.memOutOfBounds (max (s.indexAddr 0) 0x1000)) :=
  writeRangeStop_outside _ _ (Nat.succ_ne_zero n) (by simp only [State.indexAddr, memSize_eq] at *; omega)

/-- With `I` in the font it stops there: sixteen bytes from the font stay below 0x1000 (spec/20_memory.md R46; D5). -/
theorem State.writeRangeStop_of_font (hn : n < 16) (hfont : s.indexAddr 0 ≤ 0x04F) :
    writeRangeStop (s.indexAddr 0) (n + 1) = some (.fontWrite (s.indexAddr 0)) :=
  writeRangeStop_font _ _ (Nat.succ_ne_zero n) (Nat.lt_succ_of_le hfont) (by simp only [memSize_eq]; omega)

end Checks

/-- The three digits of a byte (spec/44_index_memory.md R112). -/
theorem bcdHundreds_toNat (b : Byte) : (bcdHundreds b).toNat = b.toNat / 100 := by
  have hb := b.isLt
  rw [bcdHundreds, BitVec.toNat_ofNat, Nat.mod_eq_of_lt (by omega)]

theorem bcdTens_toNat (b : Byte) : (bcdTens b).toNat = b.toNat / 10 % 10 := by
  rw [bcdTens, BitVec.toNat_ofNat, Nat.mod_eq_of_lt (by omega)]

theorem bcdOnes_toNat (b : Byte) : (bcdOnes b).toNat = b.toNat % 10 := by
  rw [bcdOnes, BitVec.toNat_ofNat, Nat.mod_eq_of_lt (by omega)]

/-- What LD B leaves at an address: its digits at `I`, `I + 1` and `I + 2`, what was there elsewhere
(spec/44_index_memory.md R112). -/
theorem State.read_storeBcd (s : State) (b : Byte) (a : Nat) :
    (s.storeBcd b).mem.read a =
      if s.indexAddr 2 = a then bcdOnes b else if s.indexAddr 1 = a then bcdTens b
      else if s.indexAddr 0 = a then bcdHundreds b else s.mem.read a := by
  rw [State.storeBcd_mem, Memory.read_write, Memory.read_write, Memory.read_write]

/-- Settles O47, by the three places of `I`: the digits where the check passes, and its two stops. -/
theorem bcdStoresThreeDigits : Obligations.BcdStoresThreeDigits := by
  intro x s
  refine ⟨hasRow_encode rfl, fun hlow hhigh => ?stores, fun habove => ?outOfBounds, fun hfont => ?font⟩
  case stores =>
    have hread := s.read_storeBcd (s.getV x)
    refine ⟨_, by rw [exec_ldBVx, stopOr_of_none _ (State.writeRangeStop_of_inside (n := 2) hlow hhigh)],
      ?hundreds, ?tens, ?ones, fun a ha => ?others, rfl⟩ <;> rw [State.advance_mem, hread]
    case hundreds => simp [State.indexAddr, bcdHundreds_toNat]
    case tens => simp [State.indexAddr, bcdTens_toNat]
    case ones => simp [State.indexAddr, bcdOnes_toNat]
    case others =>
      have haddr (k : Nat) (hk : k ≤ 2) : s.indexAddr k ≠ a := by simp only [State.indexAddr] at *; omega
      rw [if_neg (haddr 2 (by decide)), if_neg (haddr 1 (by decide)), if_neg (haddr 0 (by decide))]
  case outOfBounds => rw [exec_ldBVx, stopOr_of_some _ (State.writeRangeStop_of_above (n := 2) habove)]
  case font => rw [exec_ldBVx, stopOr_of_some _ (State.writeRangeStop_of_font (n := 2) (by decide) hfont)]

/-- A block store puts each of its registers at its address (spec/44_index_memory.md R113). -/
theorem State.read_storeRegs (s : State) {n : Nat} (hn : n ≤ 16) (k : Nibble) (hk : k.toNat < n) :
    (s.storeRegs n).mem.read (s.indexAddr k.toNat) = s.getV k := by
  induction n with
  | zero => exact absurd hk (Nat.not_lt_zero _)
  | succ n ih =>
    rw [State.storeRegs_mem_succ, Memory.read_write]
    by_cases hlast : k.toNat = n
    · have hreg : BitVec.ofNat 4 n = k := by rw [← hlast, BitVec.ofNat_toNat, BitVec.setWidth_eq]
      rw [if_pos (by rw [hlast]), hreg]
    · rw [if_neg (by simp only [State.indexAddr]; omega), ih (by omega) (by omega)]

/-- Settles O48, by the three places of `I`: the registers where the check passes, and its two stops. -/
theorem blockStore : Obligations.BlockStore := by
  intro x s
  have hx := x.isLt
  refine ⟨hasRow_encode rfl, fun hlow hhigh => ?stores, fun habove => ?outOfBounds, fun hfont => ?font⟩
  case stores =>
    refine ⟨_, by rw [exec_ldMemVx, stopOr_of_none _ (State.writeRangeStop_of_inside hlow hhigh)],
      fun k hk => ?inside, fun a ha => ?outside, ?frame⟩
    case inside => exact s.read_storeRegs hx k (Nat.lt_succ_of_le hk)
    case outside =>
      refine Memory.read_congr (s.storeRegs_find_other _ a ?_)
      simp only [State.indexAddr] at ha ⊢
      omega
    case frame => rw [State.storeRegs_eq]; rfl
  case outOfBounds => rw [exec_ldMemVx, stopOr_of_some _ (State.writeRangeStop_of_above habove)]
  case font => rw [exec_ldMemVx, stopOr_of_some _ (State.writeRangeStop_of_font hx hfont)]

/-- Settles O49, by the two sides of the check: the bytes of the block, or the stop. -/
theorem blockLoad : Obligations.BlockLoad := by
  intro x s
  have hx := x.isLt
  refine ⟨hasRow_encode rfl, fun hhigh => ?loads, fun habove => ?outOfBounds⟩
  case loads =>
    have hstop : readRangeStop (s.indexAddr 0) (x.toNat + 1) = none :=
      readRangeStop_inside _ _ (by simp only [State.indexAddr, memSize_eq] at *; omega)
    have hget (k : Nibble) := s.getV_loadRegs (n := x.toNat + 1) hx k
    refine ⟨_, by rw [exec_ldVxMem, stopOr_of_none _ hstop], fun k hk => ?inside, ?pc, ?rest, fun k hk => ?outside,
      fun a => ?memory⟩
    case inside => rw [State.advance_getV, hget, if_pos (Nat.lt_succ_of_le hk)]
    case pc => rw [State.advance_pc, State.loadRegs_pc]
    case rest => rw [State.loadRegs_eq]; rfl
    case outside => rw [State.advance_getV, hget, if_neg (mt Nat.le_of_lt_succ hk)]
    case memory => rw [State.loadRegs_eq]; rfl
  case outOfBounds =>
    have hstop : readRangeStop (s.indexAddr 0) (x.toNat + 1) = some (.memOutOfBounds (max (s.indexAddr 0) 0x1000)) :=
      readRangeStop_outside _ _ (Nat.succ_ne_zero _) (by simp only [State.indexAddr, memSize_eq] at *; omega)
    rw [exec_ldVxMem, stopOr_of_some _ hstop]

end Sys2Proof.Machine
end

section
/-! PROOFS. The display (spec/45_display.md). A drawing is described by the pixels it flips and by the set pixels among
them: one row in the pixel form and in the byte form (obligation O52), then the whole sprite, for DRW (O51), DRW of no
rows (O53) and two draws in a row (O54). -/

namespace Sys2Proof.Machine

/-- A pixel as a bit of the byte that holds it (spec/10_state.md R26). -/
theorem getPixel_eq_getLsbD (fb : Framebuffer) {px : Fin 64} {py : Fin 32} {k j : Nat} (hk : k < 256)
    (hbyte : py.val * 8 + px.val / 8 = k) (hbit : 7 - px.val % 8 = j) : getPixel fb px py = (fb[k]'hk).getLsbD j := by
  subst hbyte hbit
  rfl

/-- Two framebuffers with the same pixels are equal (spec/10_state.md R26). -/
theorem framebuffer_ext {fb fb' : Framebuffer} (h : ∀ px py, getPixel fb px py = getPixel fb' px py) : fb = fb' := by
  apply Vector.ext
  intro k hk
  apply BitVec.eq_of_getLsbD_eq
  intro j hj
  obtain ⟨px, hpx⟩ : ∃ px : Fin 64, px.val = k % 8 * 8 + (7 - j) := ⟨⟨_, by omega⟩, rfl⟩
  obtain ⟨py, hpy⟩ : ∃ py : Fin 32, py.val = k / 8 := ⟨⟨_, by omega⟩, rfl⟩
  have hbyte : py.val * 8 + px.val / 8 = k := by omega
  have hbit : 7 - px.val % 8 = j := by omega
  rw [← getPixel_eq_getLsbD fb hk hbyte hbit, ← getPixel_eq_getLsbD fb' hk hbyte hbit, h px py]

/-- The sprite column that lands on pixel column `px` when column 0 lands on `x0` (spec/45_display.md R116). -/
def spriteColumn (x0 : Nat) (px : Fin 64) : Nat := (px.val + 64 - x0) % 64

/-- Column `m` of a sprite, and no other of the screen's width, lands at `x0 + m`. -/
theorem spriteColumn_eq_iff {x0 m : Nat} (hx0 : x0 < 64) (hm : m < 64) (px : Fin 64) :
    spriteColumn x0 px = m ↔ px.val = (x0 + m) % 64 := by
  have hpx := px.isLt
  simp only [spriteColumn]
  omega

/-- Pixel column `px` is under a set bit of one of the first `m` columns of the row byte `sb`. -/
def columnBit (sb : Byte) (x0 m : Nat) (px : Fin 64) : Bool :=
  decide (spriteColumn x0 px < m) && sb.getLsbD (7 - spriteColumn x0 px)

/-- From `d` to `e` the first `m` columns of a sprite row are drawn in pixel row `py`: the pixels under its set bits are
flipped, and `collide` tells whether one of them was set. -/
structure DrawsColumns (sb : Byte) (x0 : Nat) (py : Fin 32) (m : Nat) (d e : Drawing) : Prop where
  pixel : ∀ qx qy, getPixel e.1 qx qy = (getPixel d.1 qx qy ^^ (decide (qy = py) && columnBit sb x0 m qx))
  collide : e.2 = true ↔ d.2 = true ∨ ∃ qx, columnBit sb x0 m qx = true ∧ getPixel d.1 qx py = true

/-- The description determines the drawing. -/
theorem DrawsColumns.unique {sb : Byte} {x0 m : Nat} {py : Fin 32} {d e e' : Drawing}
    (h : DrawsColumns sb x0 py m d e) (h' : DrawsColumns sb x0 py m d e') : e = e' :=
  Prod.ext (framebuffer_ext fun qx qy => (h.pixel qx qy).trans (h'.pixel qx qy).symm)
    (Bool.eq_iff_iff.2 (h.collide.trans h'.collide.symm))

theorem drawsColumns_zero (sb : Byte) (x0 : Nat) (py : Fin 32) (d : Drawing) : DrawsColumns sb x0 py 0 d d where
  pixel := by simp [columnBit]
  collide := by simp [columnBit]

theorem columnBit_of_column {sb : Byte} {x0 m : Nat} {px : Fin 64} (h : spriteColumn x0 px = m) :
    columnBit sb x0 m px = false ∧ columnBit sb x0 (m + 1) px = sb.getLsbD (7 - m) := by
  simp [columnBit, h]

theorem columnBit_succ_of_ne {sb : Byte} {x0 m : Nat} {px : Fin 64} (h : spriteColumn x0 px ≠ m) :
    columnBit sb x0 (m + 1) px = columnBit sb x0 m px := by
  simp only [columnBit, Nat.lt_succ_iff_lt_or_eq, h, or_false]

/-- A column whose bit is clear draws nothing. -/
theorem columnBit_succ_of_clear {sb : Byte} {x0 m : Nat} (hbit : sb.getLsbD (7 - m) = false) (px : Fin 64) :
    columnBit sb x0 (m + 1) px = columnBit sb x0 m px := by
  by_cases h : spriteColumn x0 px = m
  · obtain ⟨hm, hsucc⟩ := columnBit_of_column (sb := sb) h
    rw [hm, hsucc, hbit]
  · exact columnBit_succ_of_ne h

/-- One more column: the next bit flips its own pixel, which no earlier column has touched. -/
theorem DrawsColumns.drawPixel {sb : Byte} {x0 m : Nat} {py : Fin 32} {d e : Drawing} (hx0 : x0 < 64) (hm : m < 8)
    (h : DrawsColumns sb x0 py m d e) : DrawsColumns sb x0 py (m + 1) d (drawPixel sb x0 py e m) := by
  have hat (qx : Fin 64) : Fin.ofNat 64 (x0 + m) = qx ↔ spriteColumn x0 qx = m := by
    rw [spriteColumn_eq_iff hx0 (by omega), Fin.ext_iff, eq_comm]; rfl
  unfold Machine.drawPixel
  cases hbit : sb.getLsbD (7 - m) with
  | false =>
    have hsame := columnBit_succ_of_clear (x0 := x0) hbit
    rw [if_neg Bool.false_ne_true]
    exact ⟨by simpa only [hsame] using h.pixel, by simpa only [hsame] using h.collide⟩
  | true =>
    rw [if_pos rfl]
    obtain ⟨hbefore, hafter⟩ := columnBit_of_column (sb := sb) ((hat _).1 rfl)
    rw [hbit] at hafter
    have hold : getPixel e.1 (Fin.ofNat 64 (x0 + m)) py = getPixel d.1 (Fin.ofNat 64 (x0 + m)) py := by
      rw [h.pixel, hbefore, Bool.and_false, Bool.xor_false]
    refine ⟨fun qx qy => ?pixel, ?collide⟩
    case pixel =>
      rw [getPixel_flipPixel, h.pixel qx qy]
      by_cases hq : Fin.ofNat 64 (x0 + m) = qx
      · subst hq
        by_cases hy : py = qy
        · subst hy
          rw [if_pos ⟨rfl, rfl⟩, hold, hafter, decide_eq_true rfl, Bool.and_self, Bool.xor_true]
        · rw [if_neg (fun hboth => hy hboth.2), decide_eq_false (Ne.symm hy), Bool.false_and, Bool.false_and]
      · rw [if_neg (fun hboth => hq hboth.1), columnBit_succ_of_ne (mt (hat qx).2 hq)]
    case collide =>
      rw [Bool.or_eq_true, h.collide, hold, or_assoc]
      refine or_congr_right ⟨?_, ?_⟩
      · rintro (⟨qx, hcol, hset⟩ | hset)
        · have hne : spriteColumn x0 qx ≠ m := fun heq => by
            rw [(columnBit_of_column heq).1] at hcol
            exact nomatch hcol
          exact ⟨qx, (columnBit_succ_of_ne hne).trans hcol, hset⟩
        · exact ⟨_, hafter, hset⟩
      · rintro ⟨qx, hcol, hset⟩
        by_cases hq : Fin.ofNat 64 (x0 + m) = qx
        · exact .inr (hq ▸ hset)
        · exact .inl ⟨qx, (columnBit_succ_of_ne (mt (hat qx).2 hq)).symm.trans hcol, hset⟩

/-- The pixel form of a row draws its eight columns (spec/45_display.md R116). -/
theorem drawsColumns_drawRow (sb : Byte) {x0 : Nat} (hx0 : x0 < 64) (py : Fin 32) (d : Drawing) :
    DrawsColumns sb x0 py 8 d (drawRow sb x0 py d) := by
  have hcolumns (m : Nat) (hm : m ≤ 8) : DrawsColumns sb x0 py m d ((List.range m).foldl (drawPixel sb x0 py) d) := by
    induction m with
    | zero => exact drawsColumns_zero sb x0 py d
    | succ m ih =>
      rw [List.range_succ, List.foldl_append]
      exact (ih (by omega)).drawPixel hx0 hm
  exact hcolumns 8 (le_refl 8)

/-- What an XOR of a mask into one byte does to a pixel. -/
theorem getPixel_xorByte (fb : Framebuffer) (k : Nat) (mask : Byte) (qx : Fin 64) (qy : Fin 32) :
    getPixel (xorByte fb k mask) qx qy =
      (getPixel fb qx qy ^^ (decide ((pixelByte qx qy).val = k) && mask.getLsbD (pixelBit qx))) := by
  simp only [getPixel, xorByte, Vector.getElem_setIfInBounds]
  by_cases h : (pixelByte qx qy).val = k
  · subst h
    simp
  · rw [if_neg (Ne.symm h)]
    simp [h]

/-- A pixel is in byte `c` of its row exactly where its column is one of the eight of that byte. -/
theorem pixelByte_eq_iff {qx : Fin 64} {qy py : Fin 32} {c : Nat} (hc : c < 8) :
    (pixelByte qx qy).val = 8 * py.val + c ↔ qy = py ∧ qx.val / 8 = c := by
  have hqx := qx.isLt
  rw [Fin.ext_iff]
  simp only [pixelByte]
  omega

/-- A byte under a mask is not 0 exactly where they share a bit. -/
theorem and_bne_zero_iff (b mask : Byte) :
    ((b &&& mask) != 0#8) = true ↔ ∃ j, j < 8 ∧ mask.getLsbD j = true ∧ b.getLsbD j = true := by
  rw [bne_iff_ne, ne_eq, ← not_iff_not, not_not]
  constructor
  · rintro h ⟨j, -, hmask, hb⟩
    have hj := congrArg (fun w : Byte => w.getLsbD j) h
    simp [hmask, hb] at hj
  · intro h
    apply BitVec.eq_of_getLsbD_eq
    intro j hj
    rw [BitVec.getLsbD_and, BitVec.getLsbD_zero, Bool.and_eq_false_iff]
    by_contra hboth
    simp only [not_or, Bool.not_eq_false] at hboth
    exact h ⟨j, hj, hboth.2, hboth.1⟩

/-- The byte form tests a collision in byte `c` of a row: a set pixel of that byte is under the mask. -/
theorem byte_collides_iff (fb : Framebuffer) (py : Fin 32) {c : Nat} (hc : c < 8) (mask : Byte) :
    ((fb[8 * py.val + c]?.getD 0#8 &&& mask) != 0#8) = true ↔
      ∃ qx : Fin 64, (qx.val / 8 = c ∧ mask.getLsbD (pixelBit qx) = true) ∧ getPixel fb qx py = true := by
  have hk : 8 * py.val + c < 256 := by have := py.isLt; omega
  rw [Vector.getElem?_eq_getElem hk, Option.getD_some, and_bne_zero_iff]
  constructor
  · rintro ⟨j, hj, hmask, hset⟩
    have hbit : 7 - (8 * c + (7 - j)) % 8 = j := by omega
    refine ⟨⟨8 * c + (7 - j), by omega⟩, ⟨by simp only; omega, ?_⟩, ?_⟩
    · rwa [pixelBit, hbit]
    · rwa [getPixel_eq_getLsbD fb hk (by simp only; omega) hbit]
  · rintro ⟨qx, ⟨hcol, hmask⟩, hset⟩
    refine ⟨pixelBit qx, by simp only [pixelBit]; omega, hmask, ?_⟩
    rwa [getPixel_eq_getLsbD fb hk (by omega) rfl] at hset

/-- The shifted-right half of a row holds the columns up to the end of the byte of `x0` (spec/45_display.md R117). -/
theorem leftHalf_iff (sb : Byte) {x0 : Nat} (hx0 : x0 < 64) (qx : Fin 64) :
    (qx.val / 8 = x0 / 8 ∧ (sb >>> (x0 % 8)).getLsbD (pixelBit qx) = true) ↔
      spriteColumn x0 qx + x0 % 8 < 8 ∧ sb.getLsbD (7 - spriteColumn x0 qx) = true := by
  have hqx := qx.isLt
  rw [BitVec.getLsbD_ushiftRight]
  constructor
  · rintro ⟨hbyte, hset⟩
    have hlt := BitVec.lt_of_getLsbD hset
    simp only [pixelBit] at hset hlt
    have hcol : spriteColumn x0 qx = qx.val % 8 - x0 % 8 := by simp only [spriteColumn]; omega
    have hidx : 7 - spriteColumn x0 qx = x0 % 8 + (7 - qx.val % 8) := by omega
    exact ⟨by omega, hidx ▸ hset⟩
  · rintro ⟨hlt, hset⟩
    have hpos : qx.val = x0 + spriteColumn x0 qx := by simp only [spriteColumn] at *; omega
    have hidx : x0 % 8 + pixelBit qx = 7 - spriteColumn x0 qx := by simp only [pixelBit]; omega
    exact ⟨by omega, hidx ▸ hset⟩

/-- The shifted-left half of a row holds the other columns, in the next byte of the row (spec/45_display.md R117). -/
theorem rightHalf_iff (sb : Byte) {x0 : Nat} (hx0 : x0 < 64) (qx : Fin 64) :
    (qx.val / 8 = (x0 / 8 + 1) % 8 ∧ (sb <<< (8 - x0 % 8)).getLsbD (pixelBit qx) = true) ↔
      (spriteColumn x0 qx < 8 ∧ 8 ≤ spriteColumn x0 qx + x0 % 8) ∧ sb.getLsbD (7 - spriteColumn x0 qx) = true := by
  have hqx := qx.isLt
  simp only [BitVec.getLsbD_shiftLeft, Bool.and_eq_true, decide_eq_true_iff, Bool.not_eq_true', decide_eq_false_iff_not]
  constructor
  · rintro ⟨hbyte, ⟨hbit, hlow⟩, hset⟩
    simp only [pixelBit] at hlow hset
    have hcol : spriteColumn x0 qx = qx.val % 8 + 8 - x0 % 8 := by simp only [spriteColumn]; omega
    have hidx : 7 - spriteColumn x0 qx = 7 - qx.val % 8 - (8 - x0 % 8) := by omega
    exact ⟨by omega, hidx ▸ hset⟩
  · rintro ⟨⟨hlt, hge⟩, hset⟩
    have hpos : qx.val = (x0 + spriteColumn x0 qx) % 64 := (spriteColumn_eq_iff hx0 (by omega) qx).1 rfl
    have hmod : qx.val % 8 = spriteColumn x0 qx + x0 % 8 - 8 := by omega
    have hidx : pixelBit qx - (8 - x0 % 8) = 7 - spriteColumn x0 qx := by simp only [pixelBit]; omega
    exact ⟨by omega, ⟨by simp only [pixelBit]; omega, by simp only [pixelBit]; omega⟩, hidx ▸ hset⟩

/-- The two halves of a row hold its columns (spec/45_display.md R117). -/
theorem columnBit_iff_halves (sb : Byte) {x0 : Nat} (hx0 : x0 < 64) (qx : Fin 64) :
    columnBit sb x0 8 qx = true ↔
      (qx.val / 8 = x0 / 8 ∧ (sb >>> (x0 % 8)).getLsbD (pixelBit qx) = true) ∨
      (qx.val / 8 = (x0 / 8 + 1) % 8 ∧ (sb <<< (8 - x0 % 8)).getLsbD (pixelBit qx) = true) := by
  rw [leftHalf_iff sb hx0, rightHalf_iff sb hx0, ← or_and_right, columnBit, Bool.and_eq_true, decide_eq_true_iff]
  exact and_congr_left' (by omega)

/-- Two flips that exclude each other are the flip of either. -/
theorem xor_xor_eq_xor {g a b c : Bool} (hexcl : ¬ (a = true ∧ b = true)) (hc : c = true ↔ a = true ∨ b = true) :
    ((g ^^ a) ^^ b) = (g ^^ c) := by
  rw [Bool.xor_assoc, Bool.eq_iff_iff.2 (hc.trans Bool.or_eq_true_iff.symm)]
  revert hexcl
  cases a <;> cases b <;> simp

/-- The byte form of a row draws its eight columns (spec/45_display.md R117). -/
theorem drawsColumns_drawRowBytes (sb : Byte) {x0 : Nat} (hx0 : x0 < 64) (py : Fin 32) (d : Drawing) :
    DrawsColumns sb x0 py 8 d (drawRowBytes sb x0 py.val d) := by
  have hleft : x0 / 8 < 8 := by omega
  have hright : (x0 / 8 + 1) % 8 < 8 := Nat.mod_lt _ (by decide)
  refine ⟨fun qx qy => ?pixel, ?collide⟩
  case pixel =>
    simp only [drawRowBytes, getPixel_xorByte, pixelByte_eq_iff hleft, pixelByte_eq_iff hright]
    refine xor_xor_eq_xor ?excl ?halves
    case excl =>
      simp only [Bool.and_eq_true, decide_eq_true_iff]
      omega
    case halves =>
      simp only [Bool.and_eq_true, decide_eq_true_iff, columnBit_iff_halves sb hx0, and_or_left, and_assoc]
  case collide =>
    simp only [drawRowBytes, Bool.or_eq_true, byte_collides_iff d.1 py hleft, byte_collides_iff d.1 py hright,
      columnBit_iff_halves sb hx0, or_and_right, exists_or, or_assoc]

/-- The two forms of a row are one (spec/45_display.md R117). -/
theorem drawRowBytes_eq_drawRow (sb : Byte) {x0 : Nat} (hx0 : x0 < 64) (py : Fin 32) (d : Drawing) :
    drawRowBytes sb x0 py.val d = drawRow sb x0 py d :=
  (drawsColumns_drawRowBytes sb hx0 py d).unique (drawsColumns_drawRow sb hx0 py d)

/-- Settles O52, by induction on the height: each row is drawn alike in both forms. -/
theorem drawByteFormIsPixelForm : Obligations.DrawByteFormIsPixelForm := by
  intro row x0 y0 n fb hx0 _
  induction n with
  | zero => rfl
  | succ n ih =>
    rw [drawRowsBytes, drawRows, ih]
    exact drawRowBytes_eq_drawRow (row n) hx0 (Fin.ofNat 32 (y0 + n)) _

/-- The sprite row that lands on pixel row `py` when row 0 lands on `y0` (spec/45_display.md R116). -/
def spriteRowIndex (y0 : Nat) (py : Fin 32) : Nat := (py.val + 32 - y0) % 32

/-- Row `n` of a sprite, and no other of the screen's height, lands at `y0 + n`. -/
theorem spriteRowIndex_eq_iff {y0 n : Nat} (hy0 : y0 < 32) (hn : n < 32) (py : Fin 32) :
    spriteRowIndex y0 py = n ↔ py.val = (y0 + n) % 32 := by
  have hpy := py.isLt
  simp only [spriteRowIndex]
  omega

/-- Pixel `(px, py)` is under a set bit of the first `n` rows of a sprite. -/
def spriteBit (row : Nat → Byte) (x0 y0 n : Nat) (px : Fin 64) (py : Fin 32) : Bool :=
  decide (spriteRowIndex y0 py < n) && columnBit (row (spriteRowIndex y0 py)) x0 8 px

/-- From `d` to `e` the first `n` rows of a sprite are drawn: the pixels under its set bits are flipped, and `collide`
tells whether one of them was set. -/
structure DrawsSprite (row : Nat → Byte) (x0 y0 n : Nat) (d e : Drawing) : Prop where
  pixel : ∀ qx qy, getPixel e.1 qx qy = (getPixel d.1 qx qy ^^ spriteBit row x0 y0 n qx qy)
  collide : e.2 = true ↔ d.2 = true ∨ ∃ qx qy, spriteBit row x0 y0 n qx qy = true ∧ getPixel d.1 qx qy = true

theorem drawsSprite_zero (row : Nat → Byte) (x0 y0 : Nat) (d : Drawing) : DrawsSprite row x0 y0 0 d d where
  pixel := by simp [spriteBit]
  collide := by simp [spriteBit]

theorem spriteBit_of_row {row : Nat → Byte} {x0 y0 n : Nat} {py : Fin 32} (h : spriteRowIndex y0 py = n)
    (px : Fin 64) :
    spriteBit row x0 y0 n px py = false ∧ spriteBit row x0 y0 (n + 1) px py = columnBit (row n) x0 8 px := by
  simp [spriteBit, h]

theorem spriteBit_succ_of_ne {row : Nat → Byte} {x0 y0 n : Nat} {py : Fin 32} (h : spriteRowIndex y0 py ≠ n)
    (px : Fin 64) : spriteBit row x0 y0 (n + 1) px py = spriteBit row x0 y0 n px py := by
  simp only [spriteBit, Nat.lt_succ_iff_lt_or_eq, h, or_false]

/-- One more row: it is drawn in its own pixel row, which no earlier row has touched. -/
theorem DrawsSprite.drawRow {row : Nat → Byte} {x0 y0 n : Nat} {d e : Drawing} (hx0 : x0 < 64) (hy0 : y0 < 32)
    (hn : n < 32) (h : DrawsSprite row x0 y0 n d e) :
    DrawsSprite row x0 y0 (n + 1) d (drawRow (row n) x0 (Fin.ofNat 32 (y0 + n)) e) := by
  have hat (qy : Fin 32) : qy = Fin.ofNat 32 (y0 + n) ↔ spriteRowIndex y0 qy = n := by
    rw [spriteRowIndex_eq_iff hy0 hn, Fin.ext_iff]; rfl
  have hrow := drawsColumns_drawRow (row n) hx0 (Fin.ofNat 32 (y0 + n)) e
  have hnew (qx : Fin 64) := spriteBit_of_row (row := row) (x0 := x0) ((hat _).1 rfl) qx
  refine ⟨fun qx qy => ?pixel, ?collide⟩
  case pixel =>
    rw [hrow.pixel, h.pixel]
    by_cases hy : qy = Fin.ofNat 32 (y0 + n)
    · rw [hy, (hnew qx).1, (hnew qx).2, decide_eq_true rfl, Bool.xor_false, Bool.true_and]
    · rw [spriteBit_succ_of_ne (mt (hat qy).2 hy), decide_eq_false hy, Bool.false_and, Bool.xor_false]
  case collide =>
    have hold (qx : Fin 64) : getPixel e.1 qx (Fin.ofNat 32 (y0 + n)) = getPixel d.1 qx (Fin.ofNat 32 (y0 + n)) := by
      rw [h.pixel, (hnew qx).1, Bool.xor_false]
    rw [hrow.collide, h.collide, or_assoc]
    refine or_congr_right ⟨?_, ?_⟩
    · rintro (⟨qx, qy, hbit, hset⟩ | ⟨qx, hbit, hset⟩)
      · have hne : spriteRowIndex y0 qy ≠ n := fun heq => by
          rw [(spriteBit_of_row heq qx).1] at hbit
          exact nomatch hbit
        exact ⟨qx, qy, (spriteBit_succ_of_ne hne qx).trans hbit, hset⟩
      · exact ⟨qx, _, (hnew qx).2.trans hbit, (hold qx).symm.trans hset⟩
    · rintro ⟨qx, qy, hbit, hset⟩
      by_cases hy : qy = Fin.ofNat 32 (y0 + n)
      · subst hy
        exact .inr ⟨qx, (hnew qx).2.symm.trans hbit, (hold qx).trans hset⟩
      · exact .inl ⟨qx, qy, (spriteBit_succ_of_ne (mt (hat qy).2 hy) qx).symm.trans hbit, hset⟩

/-- A sprite no taller than the screen is drawn row by row (spec/45_display.md R116). -/
theorem drawsSprite_drawRows (row : Nat → Byte) {x0 y0 n : Nat} (hx0 : x0 < 64) (hy0 : y0 < 32) (hn : n ≤ 32)
    (d : Drawing) : DrawsSprite row x0 y0 n d (drawRows row x0 y0 d n) := by
  induction n with
  | zero => exact drawsSprite_zero row x0 y0 d
  | succ n ih => exact (ih (by omega)).drawRow hx0 hy0 hn

/-- The pixels under the sprite of a DRW (spec/45_display.md R116). -/
def State.drwBit (s : State) (x y n : Nibble) (px : Fin 64) (py : Fin 32) : Bool :=
  spriteBit s.spriteRow (startColumn (s.getV x)) (startRow (s.getV y)) n.toNat px py

/-- The drawing of a DRW flips the pixels under its sprite, and collides where one of them was set
(spec/45_display.md R116). -/
theorem State.drawsSprite_drawing (s : State) (x y n : Nibble) :
    DrawsSprite s.spriteRow (startColumn (s.getV x)) (startRow (s.getV y)) n.toNat (s.fb, false) (s.drawing x y n) :=
  drawsSprite_drawRows _ (Nat.mod_lt _ (by decide)) (Nat.mod_lt _ (by decide)) (n.isLt.le.trans (by decide)) _

/-- The sprite covers a pixel exactly where one of its set bits lands (spec/45_display.md R116). -/
theorem spriteCovers_iff (s : State) (x y n : Nibble) (px : Fin 64) (py : Fin 32) :
    spriteCovers s x y n px py ↔ s.drwBit x y n px py = true := by
  have hx0 : startColumn (s.getV x) < 64 := Nat.mod_lt _ (by decide)
  have hy0 : startRow (s.getV y) < 32 := Nat.mod_lt _ (by decide)
  have hn := n.isLt
  simp only [State.drwBit, spriteBit, columnBit, Bool.and_eq_true, decide_eq_true_iff]
  constructor
  · rintro ⟨r, c, hr, hc, hbit, hpx, hpy⟩
    obtain rfl := (spriteColumn_eq_iff hx0 (by omega) px).2 hpx
    obtain rfl := (spriteRowIndex_eq_iff hy0 (by omega) py).2 hpy
    exact ⟨hr, hc, hbit⟩
  · rintro ⟨hr, hc, hbit⟩
    exact ⟨_, _, hr, hc, hbit, (spriteColumn_eq_iff hx0 (by omega) px).1 rfl,
      (spriteRowIndex_eq_iff hy0 (by omega) py).1 rfl⟩

/-- DRW stops by its check, or leaves its drawing (spec/45_display.md R116). -/
theorem exec_drw (x y n : Nibble) (s : State) :
    exec (.drw x y n) s =
      stopOr (readRangeStop (s.indexAddr 0) n.toNat) (s.setDrawing (s.drawing x y n)).advance := rfl

/-- DRW completes with no rows, or with all of them up to 0xFFF (spec/20_memory.md R47; D27). -/
theorem exec_drw_of_fits {s : State} {n : Nibble} (h : n = 0x0#4 ∨ s.indexAddr n.toNat ≤ 0x1000) (x y : Nibble) :
    exec (.drw x y n) s = .next (s.setDrawing (s.drawing x y n)).advance := by
  rw [exec_drw, stopOr_of_none]
  rw [readRangeStop_eq, if_pos]
  rcases h with rfl | h
  · exact .inl rfl
  · exact .inr (by simp only [State.indexAddr, memSize_eq] at *; omega)

/-- Settles O51, by the two sides of the check: the drawing is described by the pixels under the sprite, or nothing is
drawn. -/
theorem drawFlipsSpritePixels : Obligations.DrawFlipsSpritePixels := by
  intro x y n s
  refine ⟨hasRow_encode rfl, fun hin => ?draws, fun hn habove => ?outOfBounds⟩
  case draws =>
    have hdraw := s.drawsSprite_drawing x y n
    have hvf : (s.setDrawing (s.drawing x y n)).advance.getV 0xF#4 = flagByte (s.drawing x y n).2 :=
      (s.getV_setDrawing _ _).trans (if_pos rfl)
    have hcollide : (s.drawing x y n).2 = true ↔
        ∃ px py, spriteCovers s x y n px py ∧ getPixel s.fb px py = true := by
      simp only [hdraw.collide, spriteCovers_iff, State.drwBit, Bool.false_eq_true, false_or]
    have hpixel (px : Fin 64) (py : Fin 32) :
        getPixel (s.drawing x y n).1 px py = (getPixel s.fb px py ^^ s.drwBit x y n px py) := hdraw.pixel px py
    refine ⟨_, exec_drw_of_fits hin x y, fun px py hcov => ?flipped,
      fun px py hcov => ?kept, fun hset => ?collision, fun hclear => ?noCollision, fun k hk => ?registers,
      fun _ => rfl, rfl⟩
    case flipped =>
      rw [spriteCovers_iff] at hcov
      exact (hpixel px py).trans (by rw [hcov, Bool.xor_true])
    case kept =>
      rw [spriteCovers_iff, Bool.not_eq_true] at hcov
      exact (hpixel px py).trans (by rw [hcov, Bool.xor_false])
    case collision => rw [hvf, flagByte_of_pos hcollide hset]
    case noCollision =>
      rw [hvf, flagByte_of_neg hcollide]
      rintro ⟨px, py, hcov, hset⟩
      exact Bool.false_ne_true ((hclear px py hcov).symm.trans hset)
    case registers => exact (s.getV_setDrawing _ _).trans (if_neg (Ne.symm hk))
  case outOfBounds =>
    have hpos : n.toNat ≠ 0 := fun h => hn (BitVec.eq_of_toNat_eq h)
    have hstop : readRangeStop (s.indexAddr 0) n.toNat = some (.memOutOfBounds (max (s.indexAddr 0) 0x1000)) :=
      readRangeStop_outside _ _ hpos (by simp only [State.indexAddr, memSize_eq] at *; omega)
    rw [exec_drw, stopOr_of_some _ hstop]

/-- Settles O53: the drawing of no rows is the framebuffer as it was, without a collision. -/
theorem drawOfNoRows : Obligations.DrawOfNoRows := by
  intro x y s
  refine ⟨_, exec_drw_of_fits (.inl rfl) x y, ?vf, rfl, rfl, rfl,
    fun k hk => ?others, fun _ => rfl⟩
  case vf => exact (s.getV_setDrawing _ _).trans (if_pos rfl)
  case others => exact (s.getV_setDrawing _ _).trans (if_neg (Ne.symm hk))

/-- A sprite row that is not 0 has a set bit, which lands on a pixel of the screen. -/
theorem exists_drwBit {s : State} {x y n : Nibble} {r : Nat} (hr : r < n.toNat)
    (hrow : s.mem.read (s.indexAddr r) ≠ 0#8) : ∃ px py, s.drwBit x y n px py = true := by
  obtain ⟨j, hj, hbit⟩ : ∃ j, j < 8 ∧ (s.mem.read (s.indexAddr r)).getLsbD j = true := by
    by_contra hnone
    refine hrow (BitVec.eq_of_getLsbD_eq fun j hj => ?_)
    rw [BitVec.getLsbD_zero, ← Bool.not_eq_true]
    exact fun hbit => hnone ⟨j, hj, hbit⟩
  refine ⟨Fin.ofNat 64 (startColumn (s.getV x) + (7 - j)), Fin.ofNat 32 (startRow (s.getV y) + r),
    (spriteCovers_iff s x y n _ _).1 ⟨r, 7 - j, hr, by omega, ?_, rfl, rfl⟩⟩
  rwa [show 7 - (7 - j) = j by omega]

/-- Settles O54: the two draws flip the same pixels, and on a clear screen the second meets those the first has set. -/
theorem drawTwiceRestores : Obligations.DrawTwiceRestores := by
  intro x y n s t u hx hy ht hu
  obtain rfl := eq_of_stopOr ht
  obtain rfl := eq_of_stopOr hu
  set t := (s.setDrawing (s.drawing x y n)).advance
  have hkept {k : Nibble} (hk : k ≠ 0xF#4) : t.getV k = s.getV k :=
    (s.getV_setDrawing _ k).trans (if_neg (Ne.symm hk))
  have hbit : t.drwBit x y n = s.drwBit x y n := by
    funext px py
    rw [State.drwBit, State.drwBit, hkept hx, hkept hy]
    rfl
  have hfirst := s.drawsSprite_drawing x y n
  have hsecond := t.drawsSprite_drawing x y n
  have hpixel (px : Fin 64) (py : Fin 32) : getPixel t.fb px py = (getPixel s.fb px py ^^ s.drwBit x y n px py) :=
    hfirst.pixel px py
  have hpixel' (px : Fin 64) (py : Fin 32) :
      getPixel (t.drawing x y n).1 px py = (getPixel t.fb px py ^^ t.drwBit x y n px py) := hsecond.pixel px py
  refine ⟨framebuffer_ext fun px py => ?restored, fun hclear hrow => ⟨?noCollision, ?collision⟩⟩
  case restored =>
    exact (hpixel' px py).trans (by rw [hpixel, hbit, Bool.xor_assoc, Bool.xor_self, Bool.xor_false])
  case noCollision =>
    refine ((s.getV_setDrawing _ _).trans (if_pos rfl)).trans (flagByte_of_neg hfirst.collide ?_)
    rintro (hfalse | ⟨px, py, -, hset⟩)
    · exact Bool.false_ne_true hfalse
    · exact Bool.false_ne_true ((hclear px py).symm.trans hset)
  case collision =>
    obtain ⟨r, hr, hne⟩ := hrow
    obtain ⟨px, py, hset⟩ := exists_drwBit (x := x) (y := y) hr hne
    refine ((t.getV_setDrawing _ _).trans (if_pos rfl)).trans (flagByte_of_pos hsecond.collide (.inr ⟨px, py, ?_, ?_⟩))
    · exact (congrFun (congrFun hbit px) py).trans hset
    · exact (hpixel px py).trans (by rw [hclear, hset, Bool.false_xor])

end Sys2Proof.Machine
end

section
/-! PROOFS. The timers and the keypad (spec/46_timers_keys.md): the key skips (obligation O55), the timer moves (O56) and
the key wait (O57). -/

namespace Sys2Proof.Machine

/-- SKP completes in one skip on the key test (spec/46_timers_keys.md R122). -/
theorem exec_skp (x : Nibble) (s : State) :
    exec (.skp x) s = .next ((s.afterKeyTest (s.getV x)).skipIf (s.pressed (s.getV x))) := rfl

/-- SKNP completes in one skip on the opposite of the key test (spec/46_timers_keys.md R123). -/
theorem exec_sknp (x : Nibble) (s : State) :
    exec (.sknp x) s = .next ((s.afterKeyTest (s.getV x)).skipIf (!s.pressed (s.getV x))) := rfl

/-- The test of a key reads the latched mask and uses no draw (spec/46_timers_keys.md R121). -/
theorem State.keyTest_of_le (s : State) {k : Byte} (hk : k.toNat ≤ 15) :
    s.pressed k = s.keypad.getLsbD k.toNat ∧ s.afterKeyTest k = s := by
  have hkey : isFreeKey k = false := decide_eq_false (Nat.not_lt.2 hk)
  simp [State.pressed, State.afterKeyTest, hkey, State.keyHeld]

/-- The test of a number above 15 is the next free Boolean and uses it up (spec/46_timers_keys.md R121; D17). -/
theorem State.keyTest_of_gt (s : State) {k : Byte} (hk : 15 < k.toNat) :
    s.pressed k = Config.freeKey s.draws ∧ s.afterKeyTest k = { s with draws := s.draws + 1 } := by
  have hkey : isFreeKey k = true := decide_eq_true hk
  simp [State.pressed, State.afterKeyTest, hkey]

/-- A skip on a Boolean, and on its opposite, as an update of `PC` alone (spec/42_skip.md R89). -/
theorem State.skipIf_eq_skipTarget (s : State) (b : Bool) :
    s.skipIf b = { s with pc := skipTarget s (b = true) } ∧
      s.skipIf (!b) = { s with pc := skipTarget s (b = false) } :=
  ⟨s.skipIf_eq_withPc Iff.rfl, s.skipIf_eq_withPc (iff_of_eq (Bool.not_eq_true' b))⟩

/-- Settles O55, by the two kinds of key number. -/
theorem keySkips : Obligations.KeySkips := by
  intro x s
  refine ⟨hasRow_encode rfl, hasRow_encode rfl, fun hk => ?key, fun hk => ?free⟩
  case key =>
    obtain ⟨htest, hafter⟩ := s.keyTest_of_le hk
    obtain ⟨hskip, hnskip⟩ := s.skipIf_eq_skipTarget (s.keypad.getLsbD (s.getV x).toNat)
    rw [exec_skp, exec_sknp, hafter, htest, hskip, hnskip]
    exact ⟨rfl, rfl⟩
  case free =>
    obtain ⟨htest, hafter⟩ := s.keyTest_of_gt hk
    obtain ⟨hskip, hnskip⟩ := { s with draws := s.draws + 1 }.skipIf_eq_skipTarget (Config.freeKey s.draws)
    rw [exec_skp, exec_sknp, hafter, htest, hskip, hnskip]
    exact ⟨rfl, rfl⟩

/-- Settles O56: each move is one write. -/
theorem timerMoves : Obligations.TimerMoves := fun x s =>
  ⟨hasRow_encode rfl, hasRow_encode rfl, hasRow_encode rfl,
    ⟨s.setResult x s.dt, rfl, s.getV_setResult_same x s.dt, rfl, s.onlyRegs_setResult x s.dt⟩, rfl, rfl⟩

/-- LD Vx, K completes in what the lowest key held decides (spec/46_timers_keys.md R125). -/
theorem exec_ldVxK (x : Nibble) (s : State) : exec (.ldVxK x) s = .next (s.keyWait x s.lowestKey) := rfl

/-- Which key is the lowest one held (spec/46_timers_keys.md R125). -/
theorem State.lowestKey_eq_some (s : State) (k : Nat) :
    s.lowestKey = some k ↔
      s.keypad.getLsbD k = true ∧ k < 16 ∧ ∀ j, j < k → s.keypad.getLsbD j = false := by
  rw [State.lowestKey, List.find?_range_eq_some, List.mem_range]
  simp only [State.keyHeld, Bool.not_eq_true']

/-- The number of a key is a byte. -/
theorem toNat_ofNat_of_key {k : Nat} (hk : k < 16) : (BitVec.ofNat 8 k).toNat = k := by
  rw [BitVec.toNat_ofNat, Nat.mod_eq_of_lt (by omega)]

/-- Settles O57, by the lowest key held: none, or one whose number is written. -/
theorem keyWaitTakesLowestKey : Obligations.KeyWaitTakesLowestKey := by
  intro x s
  refine ⟨hasRow_encode rfl, fun hnone => ?waits, fun k hk hheld hlower => ?takes, fun hsome => ?held⟩
  case waits =>
    rw [exec_ldVxK, s.lowestKey_eq_none.2 hnone]
    rfl
  case takes =>
    rw [exec_ldVxK, (s.lowestKey_eq_some k).2 ⟨hheld, hk, hlower⟩]
    refine ⟨s.setResult x (BitVec.ofNat 8 k), rfl, ?number, rfl, s.onlyRegs_setResult x _⟩
    rw [s.getV_setResult_same, toNat_ofNat_of_key hk]
  case held =>
    obtain ⟨k, hlow⟩ := Option.ne_none_iff_exists'.1 (mt s.lowestKey_eq_none.1 hsome)
    obtain ⟨hheld, hk, -⟩ := (s.lowestKey_eq_some k).1 hlow
    rw [exec_ldVxK, hlow]
    refine ⟨s.setResult x (BitVec.ofNat 8 k), rfl, ?_⟩
    rw [s.getV_setResult_same, toNat_ofNat_of_key hk, hheld]

end Sys2Proof.Machine
end
